-- ==== Sys2Proof/Word.lean ====
section
/-! DEFINITION. The word types of QPC: a byte, a 32-bit register, an offset register. -/
namespace Sys2Proof

/-- A byte: 8 bits, bit 7 the most significant (R8). -/
abbrev Byte := BitVec 8

/-- A 32-bit register: header dimensions, pixel counters, `frow`, `crc` (R21, R23, R28, R29). -/
abbrev Word32 := BitVec 32

/-- A 64-bit latch: `err_expected`, `err_found` (R34). -/
abbrev Word64 := BitVec 64

/-- A register of OFFSET_WIDTH bits: `ipos`, `ILEN`, `opos`, `blk`, `err_offset`. OFFSET_WIDTH is 64 in this hardware (R7, D19). -/
abbrev Offset := BitVec 64

end Sys2Proof
end

