-- ==== Sys2Proof/Config.lean ====
section
/-! DEFINITION. What an implementation fixes for the life of the block (00_scope.md R6, R7), and the model's one free value. -/
namespace Sys2Proof

/-- FILTER_MODE (R7): filter type 0 for every row, or the adaptive choice of R188. -/
inductive FilterMode
  | none
  | adaptive
deriving DecidableEq, Repr

/-- COMPRESS_MODE (R7, R215): no other value is defined. -/
inductive CompressMode
  | stored
deriving DecidableEq, Repr

/-- TRAILING_POLICY (R7, R145): what END does with input bytes after the marker. -/
inductive TrailingPolicy
  | ignore
  | reject
deriving DecidableEq, Repr

/-- The parameters the source leaves to the implementation (R7). OFFSET_WIDTH is the width of `Offset`; STEP_GRAIN is the grain of `step`;
CSR_BASE has no value, registers go by number (log 3). -/
structure Params where
  filterMode : FilterMode
  compressMode : CompressMode
  /-- BLOCK_MAX, bytes of payload per stored block. -/
  blockMax : Nat
  /-- IDAT_MAX, bytes of the zlib stream per IDAT chunk. -/
  idatMax : Nat
  trailing : TrailingPolicy
  /-- MAX_PIXELS, the capacity of the pixel buffer. -/
  maxPixels : Nat
deriving DecidableEq, Repr

/-- The legal ranges of R7. -/
abbrev Params.Legal (p : Params) : Prop :=
  (1 ≤ p.blockMax ∧ p.blockMax ≤ 65535) ∧ (1 ≤ p.idatMax ∧ p.idatMax ≤ 2 ^ 31 - 1) ∧
    (1 ≤ p.maxPixels ∧ p.maxPixels ≤ 2 ^ 32 - 1)

/-- The values of this hardware (R7, last column): IDAT_MAX is 2^31 - 1 and MAX_PIXELS 2^32 - 1. -/
def Config.hw : Params :=
  { filterMode := .none, compressMode := .stored, blockMax := 65535, idatMax := 2147483647,
    trailing := .ignore, maxPixels := 4294967295 }

/-- OFFSET_WIDTH of this hardware (R7). -/
abbrev Config.offsetWidth : Nat := 64

/-- FREE VALUE (U15; log 4): the byte the block reads at an address below `ILEN` where the host has placed none. It may differ for every operation (first argument: the
operation's number) and every address (second argument); nothing constrains it. -/
opaque Config.unprovidedInByte : Nat → Nat → Byte

end Sys2Proof
end

