-- ==== Sys2Proof/Machine/Memory.lean ====
section
/-! DEFINITION. Sparse storage in one canonical form: IN by byte offset and PB by pixel index (20_memory.md R60, R61, R63). -/
namespace Sys2Proof.Machine

/-- Elements by address, addresses strictly rising. An unlisted address holds no value: what a read of one gives is said where it is read (log 4, 9). -/
abbrev Cells (α : Type) := List (Nat × α)

/-- A byte space: a list of `Host.Cell`. -/
abbrev Memory := List Host.Cell

/-- The canonical form. -/
abbrev Cells.wf {α : Type} (m : Cells α) : Prop := (m.map Prod.fst).Pairwise (· < ·)

/-- The canonical form of a byte space. -/
abbrev Memory.wf (m : Memory) : Prop := Cells.wf m

/-- The element at an address, if one holds a value. -/
def Cells.read {α : Type} : Cells α → Nat → Option α
  | [], _ => none
  | (k, v) :: t, a => if k = a then some v else Cells.read t a

/-- Write one element, keeping the canonical form. -/
def Cells.write {α : Type} : Cells α → Nat → α → Cells α
  | [], a, v => [(a, v)]
  | (k, w) :: t, a, v =>
    if a < k then (a, v) :: (k, w) :: t
    else if k = a then (a, v) :: t
    else (k, w) :: Cells.write t a v

/-- Write consecutive elements from an address upward. -/
def Cells.writeMany {α : Type} : Cells α → Nat → List α → Cells α
  | m, _, [] => m
  | m, a, v :: t => Cells.writeMany (Cells.write m a v) (a + 1) t

end Sys2Proof.Machine
end

