-- ==== Sys2Proof/Syntax.lean ====
section
/-! DEFINITION. The instructions of QPC: one constructor per row of spec/opcode_table.json. -/
namespace Sys2Proof

/-- The QOI chunks, the two framing items, the two commands, and the operations of the encode side (R15).
Operands are true values, as in the notation of R105, not stored fields. -/
inductive Instr
  /-- RGB, R92, R130. -/
  | rgb (r g b : Byte)
  /-- RGBA, R93, R131. -/
  | rgba (r g b a : Byte)
  /-- INDEX, R94, R132: the slot of the color cache. -/
  | index (slot : Fin 64)
  /-- DIFF, R95, R134: signed differences, each -2 to 1. -/
  | diff (dr dg db : Int)
  /-- LUMA, R96, R136: dg is -32 to 31; dr_dg and db_dg are -8 to 7. -/
  | luma (dg drdg dbdg : Int)
  /-- RUN, R97, R138: count is 1 to 62. -/
  | run (count : Nat)
  /-- HEADER, R98, R122: the fields of IN[0..14); width and height are `u32be` values (R66). -/
  | header (magic width height : Word32) (channels colorspace : Byte)
  /-- END, R99, R144: the 8 bytes at `pc` as a big-endian number. -/
  | endMarker (marker : Word64)
  /-- START, R36, R263. -/
  | start
  /-- SRESET, R36, R264. -/
  | sreset
  /-- CRC.INIT, R161. -/
  | crcInit
  /-- CRC.UPDATE, R162. -/
  | crcUpdate (v : Byte)
  /-- CRC.FINAL, R163. -/
  | crcFinal
  /-- ADLER.INIT, R166. -/
  | adlerInit
  /-- ADLER.UPDATE, R167. -/
  | adlerUpdate (v : Byte)
  /-- ADLER.FINAL, R168. -/
  | adlerFinal
  /-- FILT.ROW, R183, R189: the row is `frow`. -/
  | filtRow
  /-- ZLIB.HEADER, R202. -/
  | zlibHeader
  /-- BITS.PUT, R203: k bits of v, 1 to 16. -/
  | bitsPut (v : BitVec 16) (k : Nat)
  /-- BITS.ALIGN, R204. -/
  | bitsAlign
  /-- DEFLATE.STORED, R206: the block is `blk`. -/
  | deflateStored
  /-- ZLIB.TRAILER, R212. -/
  | zlibTrailer
  /-- PNG.SIGNATURE, R231. -/
  | pngSignature
  /-- PNG.CHUNK, R233: the 4 type bytes, first letter most significant, and the data. -/
  | pngChunk (type : Word32) (data : List Byte)
  /-- PNG.IHDR, R235. -/
  | pngIhdr
  /-- PNG.IDAT, R241: the piece's index. -/
  | pngIdat (piece : Nat)
  /-- PNG.IEND, R243. -/
  | pngIend
deriving DecidableEq, Repr

end Sys2Proof
end

