-- ==== Sys2Proof/Machine/State.lean ====
section
/-! DEFINITION. The state of QPC (10_state.md R20) as plain data, the reasons a step can stop, and the state after reset (R39, R321). -/
namespace Sys2Proof.Machine

/-- A pixel: four unsigned 8-bit components (R6). -/
structure Pixel where
  r : Byte
  g : Byte
  b : Byte
  a : Byte
deriving DecidableEq, Repr

/-- The sequencer's states (R32). Codes 9 to 15 are never taken and have no constructor (U13). -/
inductive Phase
  | idle
  | decHdr
  | decBody
  | decEnd
  | filter
  | deflate
  | frame
  | done
  | error
deriving DecidableEq, Repr

/-- `err_kind` (R34, R280). -/
inductive ErrKind
  | none
  | formatError
  | sizeError
  | argError
deriving DecidableEq, Repr

/-- `err_cause` (R34, R284); `none` is the cleared latch. -/
inductive ErrCause
  | none
  | truncatedHeader
  | badMagic
  | badChannels
  | badColorspace
  | truncatedChunk
  | runOverflow
  | badEndMarker
  /-- Reserved: no rule raises it (R286). -/
  | reservedTag
  | trailingData
  | zeroWidth
  | zeroHeight
  | sizeOverflow
  | capacity
  | encBadChannels
  | encZeroDim
deriving DecidableEq, Repr

/-- The host-visible registers, numbers 0 to 13 in this order (R35). -/
inductive HostReg
  | ctrl
  | status
  | ilen
  | hdrWidth
  | hdrHeight
  | hdrChannels
  | hdrColorspace
  | errKind
  | errCause
  | errOffset
  | errExpected
  | errFound
  | pxcnt
  | olen
deriving DecidableEq, Repr

/-- A move of the host or the platform (R270, R320; log 1). Two of them let the block run while the host looks on. -/
inductive HostMove
  /-- Place bytes in IN from an offset upward (R270 step 1). -/
  | placeIn (offset : Nat) (bytes : List Byte)
  /-- Write a register (R35). -/
  | write (reg : HostReg) (value : Word64)
  /-- Assert the hardware reset input (R320). -/
  | resetInput
  /-- Poll STATUS once (R270 step 3): the block makes one operation meanwhile. -/
  | poll
  /-- Wait on the DONE and ERROR outputs (R270 step 3, R312): pending, while the block runs, until BUSY is 0. -/
  | waitEnd
deriving DecidableEq, Repr

/-- Why the machine stops with a fault. -/
inductive Fault
  /-- `produce` would write PB at `pxcnt >= pxtotal`, an address PB does not have (R60, R63, R127). Safe: the spec calls `produce` only below `pxtotal`. -/
  | pixelAddressOutOfRange
  /-- A host move places a byte of IN at 2^OFFSET_WIDTH or above, an offset no register can hold (R60). Safe. -/
  | inputAddressOutOfRange
deriving DecidableEq, Repr

/-- Why the machine refuses. -/
inductive Refusal
  /-- An instruction without a meaning, by its mnemonic. No arm answers it. Safe. -/
  | notModelled (mnemonic : String)
  /-- The host changes IN while BUSY: a move the model does not give it (R271, U8). Safe. -/
  | inputChangedWhileBusy
  /-- FILT.ROW needs a PB element that holds no value: the read has no meaning (R27, U11). Safe. -/
  | pixelHoldsNoValue
  /-- FILT.ROW with `frow >= hdr_height`: there is no such row (R182). Safe. -/
  | noSuchRow
  /-- DEFLATE.STORED with `blk >= n`: there is no such block (R210). Safe. -/
  | noSuchBlock
  /-- PNG.IDAT with a piece index of m or more: there is no such piece (R240). Safe. -/
  | noSuchPiece
  /-- PNG.CHUNK with more than 2^31 - 1 data bytes (R233). Safe. -/
  | chunkTooLong
  /-- PNG.IHDR with a channel count other than 3 and 4: no color type exists for it (R237). Safe. -/
  | noColorType
deriving DecidableEq, Repr

/-- The machine's state: R20's list, IN, and the model's own fields `host`, `ckOut`, `freeSeq`. -/
structure State where
  /-- MODEL's own: the host's moves not yet made, first one first (log 1). -/
  host : List HostMove
  /-- IN, the input bytes the host has placed (R61). -/
  inp : Memory
  /-- The sequencer's state (R32). -/
  phase : Phase
  /-- OUT, the PNG file (R64). -/
  out : List Byte
  /-- ZS, the zlib stream (R64). -/
  zs : List Byte
  /-- FB, the filtered payload (R64). -/
  fb : List Byte
  /-- PB, the pixel buffer, by pixel index (R27, R63). -/
  pb : Cells Pixel
  /-- ILEN (R25). -/
  ilen : Offset
  /-- `ipos`, the `pc` of the pseudocode (R24). -/
  ipos : Offset
  /-- `hdr_width` (R21). -/
  hdrWidth : Word32
  /-- `hdr_height` (R21). -/
  hdrHeight : Word32
  /-- `hdr_channels` (R21). -/
  hdrChannels : Byte
  /-- `hdr_colorspace` (R21). -/
  hdrColorspace : Byte
  /-- The previous pixel (R22). -/
  prev : Pixel
  /-- Pixels written to PB so far (R23). -/
  pxcnt : Word32
  /-- Pixels of the image (R23). -/
  pxtotal : Word32
  /-- The color cache (R26). -/
  cache : Vector Pixel 64
  /-- The CRC-32 remainder (R28). -/
  crc : Word32
  /-- The first sum of Adler-32 (R28). -/
  adlerA : BitVec 16
  /-- The second sum of Adler-32 (R28). -/
  adlerB : BitVec 16
  /-- The next row FS will emit (R29). -/
  frow : Word32
  /-- The deflate byte being assembled (R30). -/
  bitbuf : Byte
  /-- How many bits of `bitbuf` are filled (R30). -/
  bitcnt : BitVec 3
  /-- The next stored block (R30). -/
  blk : Offset
  /-- Bytes appended to OUT so far (R31). -/
  opos : Offset
  /-- `err_kind` (R34). -/
  errKind : ErrKind
  /-- `err_cause` (R34). -/
  errCause : ErrCause
  /-- `err_offset` (R34). -/
  errOffset : Offset
  /-- `err_expected` (R34). -/
  errExpected : Word64
  /-- `err_found` (R34). -/
  errFound : Word64
  /-- MODEL's own: what the last CRC.FINAL or ADLER.FINAL returned (log 7). -/
  ckOut : Word32
  /-- MODEL's own: how many STARTs were accepted (log 4). -/
  freeSeq : Nat
deriving DecidableEq, Repr

/-- The state after hardware reset, power-on included (R39, R321): every value is the spec's but those of `host`, `inp`, `ckOut` and
`freeSeq`, which R39 does not list (DESIGN CHOICE, log 21). -/
def State.reset : State :=
  { host := [], inp := [], ilen := 0, ipos := 0,
    hdrWidth := 0, hdrHeight := 0, hdrChannels := 0, hdrColorspace := 0,
    prev := ⟨0, 0, 0, 255⟩, pxcnt := 0, pxtotal := 0,
    cache := Vector.replicate 64 ⟨0, 0, 0, 0⟩, pb := [],
    crc := 0xFFFFFFFF, adlerA := 1, adlerB := 0,
    frow := 0, bitbuf := 0, bitcnt := 0, blk := 0, opos := 0,
    phase := .idle,
    errKind := .none, errCause := .none, errOffset := 0, errExpected := 0, errFound := 0,
    fb := [], zs := [], out := [], ckOut := 0, freeSeq := 0 }

/-- What an operation answers. -/
abbrev Result := Host.Outcome State Fault Refusal

end Sys2Proof.Machine
end

