-- ==== Sys2Proof/Machine/Flags.lean ====
section
/-! DEFINITION. The status flags and every numeric code the host sees (10_state.md R32 to R35, 60_exceptions.md R280, R284). No chunk sets or tests a flag (R33). -/
namespace Sys2Proof.Machine

/-- The code of a phase (R32). -/
def phaseCode : Phase → Nat
  | .idle => 0
  | .decHdr => 1
  | .decBody => 2
  | .decEnd => 3
  | .filter => 4
  | .deflate => 5
  | .frame => 6
  | .done => 7
  | .error => 8

/-- The code of an exception kind (R280). -/
def kindCode : ErrKind → Nat
  | .none => 0
  | .formatError => 1
  | .sizeError => 2
  | .argError => 3

/-- The code of a cause (R284). -/
def causeCode : ErrCause → Nat
  | .none => 0
  | .truncatedHeader => 1
  | .badMagic => 2
  | .badChannels => 3
  | .badColorspace => 4
  | .truncatedChunk => 5
  | .runOverflow => 6
  | .badEndMarker => 7
  | .reservedTag => 8
  | .trailingData => 9
  | .zeroWidth => 16
  | .zeroHeight => 17
  | .sizeOverflow => 18
  | .capacity => 19
  | .encBadChannels => 32
  | .encZeroDim => 33

/-- The kind of each cause (R284). -/
def causeKind : ErrCause → ErrKind
  | .none => .none
  | .truncatedHeader => .formatError
  | .badMagic => .formatError
  | .badChannels => .formatError
  | .badColorspace => .formatError
  | .truncatedChunk => .formatError
  | .runOverflow => .formatError
  | .badEndMarker => .formatError
  | .reservedTag => .formatError
  | .trailingData => .formatError
  | .zeroWidth => .sizeError
  | .zeroHeight => .sizeError
  | .sizeOverflow => .sizeError
  | .capacity => .sizeError
  | .encBadChannels => .argError
  | .encZeroDim => .argError

/-- The phases in which an operation runs (R33). -/
def busyPhase : Phase → Bool
  | .idle => false
  | .decHdr => true
  | .decBody => true
  | .decEnd => true
  | .filter => true
  | .deflate => true
  | .frame => true
  | .done => false
  | .error => false

/-- The flag BUSY, a function of `phase` (R33). -/
def busy (s : State) : Bool := busyPhase s.phase

/-- The flag DONE, and the level output of R312. -/
def doneFlag (s : State) : Bool := decide (s.phase = .done)

/-- The flag ERROR, and the level output of R312. -/
def errorFlag (s : State) : Bool := decide (s.phase = .error)

/-- STATUS: bit 0 BUSY, bit 1 DONE, bit 2 ERROR, bit 3 zero, bits 7:4 the phase (R35). -/
def statusWord (s : State) : Byte :=
  BitVec.ofNat 8 (16 * phaseCode s.phase + 4 * (errorFlag s).toNat + 2 * (doneFlag s).toNat
    + (busy s).toNat)

/-- The register's number (R35). -/
def regNumber : HostReg → Nat
  | .ctrl => 0
  | .status => 1
  | .ilen => 2
  | .hdrWidth => 3
  | .hdrHeight => 4
  | .hdrChannels => 5
  | .hdrColorspace => 6
  | .errKind => 7
  | .errCause => 8
  | .errOffset => 9
  | .errExpected => 10
  | .errFound => 11
  | .pxcnt => 12
  | .olen => 13

end Sys2Proof.Machine
end

