-- ==== Sys2Proof/Machine/Bytes.lean ====
section
/-! DEFINITION. Bit fields and byte orders: the helpers of R8 and R11. -/
namespace Sys2Proof.Machine

/-- `v[hi:lo]` of a byte, read as an unsigned number (R8: `(v >> lo) and (2^(hi-lo+1) - 1)`). -/
def bits (v : Byte) (hi lo : Nat) : Nat := (v.toNat >>> lo) % 2 ^ (hi - lo + 1)

/-- A byte sequence read as a big-endian number, most significant byte first (R284, R303). The empty sequence is 0. -/
def beNat (s : List Byte) : Nat := s.foldl (fun acc b => acc * 256 + b.toNat) 0

/-- `u32be` of four bytes (R11). -/
def u32be (b0 b1 b2 b3 : Byte) : Word32 := BitVec.ofNat 32 (beNat [b0, b1, b2, b3])

/-- Eight bytes as a big-endian 64-bit number (R144). -/
def u64be (b0 b1 b2 b3 b4 b5 b6 b7 : Byte) : Word64 :=
  BitVec.ofNat 64 (beNat [b0, b1, b2, b3, b4, b5, b6, b7])

/-- `BE32(v)`: four bytes, most significant first (R11). -/
def be32 (v : Word32) : List Byte :=
  [v.extractLsb' 24 8, v.extractLsb' 16 8, v.extractLsb' 8 8, v.extractLsb' 0 8]

/-- Eight bytes, most significant first: the inverse of `u64be`. -/
def be64 (v : Word64) : List Byte :=
  [v.extractLsb' 56 8, v.extractLsb' 48 8, v.extractLsb' 40 8, v.extractLsb' 32 8,
   v.extractLsb' 24 8, v.extractLsb' 16 8, v.extractLsb' 8 8, v.extractLsb' 0 8]

/-- `LE16(v)`: two bytes, least significant first (R11). -/
def le16 (v : BitVec 16) : List Byte := [v.extractLsb' 0 8, v.extractLsb' 8 8]

end Sys2Proof.Machine
end

