-- ==== Sys2Proof/Machine/Operands.lean ====
section
/-! DEFINITION. Pixel operands: the color hash (R128), wrapping differences (R134, R136), the packing of R13, and the reads of IN, PB and CACHE. -/
namespace Sys2Proof.Machine

/-- The color hash, `(r x 3 + g x 5 + b x 7 + a x 11) mod 64` (R128). -/
def hash (p : Pixel) : Fin 64 :=
  ⟨(p.r.toNat * 3 + p.g.toNat * 5 + p.b.toNat * 7 + p.a.toNat * 11) % 64,
    Nat.mod_lt _ (by decide)⟩

/-- `(v + d) mod 256` of one channel (R134, R9). -/
def addWrap (v : Byte) (d : Int) : Byte := BitVec.ofInt 8 (v.toNat + d)

/-- The pixel `q` plus a difference per color channel, each wrapped on its own; alpha unchanged (R134, R136). -/
def addDelta (q : Pixel) (dr dg db : Int) : Pixel :=
  ⟨addWrap q.r dr, addWrap q.g dg, addWrap q.b db, q.a⟩

/-- A pixel as one 32-bit value, r in bits 31:24 (R13). Never visible in IN or OUT. -/
def packPixel (p : Pixel) : Word32 := u32be p.r p.g p.b p.a

/-- The 4-channel or 3-channel bytes of a pixel in a scanline: alpha only with 4 channels (R67, R182). For a count that is neither, R182 appends nothing. -/
def pixelBytes (channels : Byte) (p : Pixel) : List Byte :=
  if channels = 3 then [p.r, p.g, p.b]
  else if channels = 4 then [p.r, p.g, p.b, p.a]
  else []

/-- `MemRead(IN, a, 1)`, defined below ILEN (R61). Where the host has placed no byte the value is free (U15, log 4). -/
def inByte (s : State) (a : Nat) : Byte :=
  match Cells.read s.inp a with
  | some b => b
  | none => Config.unprovidedInByte s.freeSeq a

/-- The bytes of IN from offset `a`, at most `n` of them and none at or beyond ILEN (R61, R70). -/
def inWindow (s : State) (a n : Nat) : List Byte :=
  (List.range (min n (s.ilen.toNat - a))).map fun k => inByte s (a + k)

/-- `MemRead(PB, a, 1)`: an element that was not written holds no value (R27). -/
def pbRead (s : State) (a : Nat) : Option Pixel := Cells.read s.pb a

/-- `n` consecutive elements of PB from address `a`; none if one of them holds no value (R27). -/
def pbReadMany (s : State) : Nat → Nat → Option (List Pixel)
  | _, 0 => some []
  | a, n + 1 =>
    match pbRead s a, pbReadMany s (a + 1) n with
    | some p, some ps => some (p :: ps)
    | _, _ => none

/-- `MemRead(CACHE, i, 1)` (R62, R132). -/
def cacheRead (s : State) (i : Fin 64) : Pixel := s.cache[i]

end Sys2Proof.Machine
end

