-- ==== Sys2Proof/Machine/Ops.lean ====
section
/-! DEFINITION. The named operations every meaning is built from: sequencing of results, `raise` (R300), the START and reset effects (R263, R321), the writes of PB, CACHE, FB, ZS and OUT. -/
namespace Sys2Proof.Machine

/-- Go on with `f` where `x` answers a next state. -/
def andThen (x : Result) (f : State → Result) : Result :=
  match x with
  | .next s => f s
  | .fault r => .fault r
  | .refused r => .refused r

/-- The next state of a result, if it is one. -/
def nextState? (x : Result) : Option State :=
  match x with
  | .next s => some s
  | .fault _ => none
  | .refused _ => none

/-- `raise K(cause, offset, expected, found)` (R300): the five latches, phase ERROR, PB invalid, FB, ZS, OUT empty, `opos` 0, and nothing else.
The kind K of a cause is R284's. -/
def raise (cause : ErrCause) (offset : Offset) (expected found : Word64) (s : State) : State :=
  { s with
    errKind := causeKind cause, errCause := cause,
    errOffset := offset, errExpected := expected, errFound := found,
    phase := .error, pb := [], fb := [], zs := [], out := [], opos := 0 }

/-- The reset of R321: every piece of state of R20 takes its after-reset value. IN is not touched; nor are the host's further moves and the model's
operation counter (log 21). There is no return from an exception: this and `startEffect` are the only ways out of ERROR (R305). -/
def resetEffect (s : State) : State :=
  { State.reset with host := s.host, inp := s.inp, freeSeq := s.freeSeq }

/-- An accepted START (R263, R322): the after-START values of R39, which keep ILEN; phase DEC_HDR. -/
def startEffect (s : State) : State :=
  { State.reset with
    host := s.host, inp := s.inp, freeSeq := s.freeSeq + 1, ilen := s.ilen, phase := .decHdr }

/-- `produce(p)` (R127): write PB at `pxcnt`, count the pixel. PB has no address at or above `pxtotal` (R60, R63). -/
def produce (p : Pixel) (s : State) : Result :=
  if s.pxcnt < s.pxtotal then
    .next { s with pb := Cells.write s.pb s.pxcnt.toNat p, pxcnt := s.pxcnt + 1 }
  else .fault .pixelAddressOutOfRange

/-- `produce(p)` repeated (R138). -/
def produceMany (p : Pixel) : Nat → State → Result
  | 0, s => .next s
  | n + 1, s => andThen (produce p s) (produceMany p n)

/-- `cache_put(p)` (R129): slot `hash(p)` takes p, unconditionally. -/
def cachePut (p : Pixel) (s : State) : State :=
  { s with cache := s.cache.set (hash p).val p (hash p).isLt }

/-- `x[prev] <- p` (R22). -/
def setPrev (p : Pixel) (s : State) : State := { s with prev := p }

/-- `pc <- pc + n` (R24). -/
def advancePc (n : Nat) (s : State) : State := { s with ipos := s.ipos + BitVec.ofNat 64 n }

/-- `Emit(FB, bytes)` (R64). -/
def emitFb (bytes : List Byte) (s : State) : State := { s with fb := s.fb ++ bytes }

/-- `Emit(ZS, bytes)` (R64). -/
def emitZs (bytes : List Byte) (s : State) : State := { s with zs := s.zs ++ bytes }

/-- `Emit(OUT, bytes)` (R64); `opos` is the number of bytes appended so far (R31; DEDUCED for PNG.SIGNATURE, log 8). -/
def emitOut (bytes : List Byte) (s : State) : State :=
  { s with out := s.out ++ bytes, opos := s.opos + BitVec.ofNat 64 bytes.length }

/-- The presence checks of a chunk of `n` bytes, made before any effect: R124's lead byte, then R126's whole chunk. -/
def withChunk (n : Nat) (s : State) (k : State → Result) : Result :=
  if s.ilen.toNat ≤ s.ipos.toNat then .next (raise .truncatedChunk s.ipos 1 0 s)
  else if s.ilen.toNat < s.ipos.toNat + n then
    .next (raise .truncatedChunk s.ipos (BitVec.ofNat 64 n) (s.ilen - s.ipos) s)
  else k s

end Sys2Proof.Machine
end

