-- ==== Sys2Proof/Machine/Control.lean ====
section
/-! DEFINITION. The commands of SEQ (45_pipeline_control.md R263, R264) and what the host observes (10_state.md R35, R27, 20_memory.md R60). -/
namespace Sys2Proof.Machine

/-- START (R263): ignored while BUSY (D32). -/
def execStart (s : State) : Result := if busy s then .next s else .next (startEffect s)

/-- SRESET (R264): the reset of R321 at any time. -/
def execSreset (s : State) : Result := .next (resetEffect s)

/-- A read of a host-visible register, zero-extended; the write-only CTRL reads 0 (R35). It has no side effect. -/
def readReg (s : State) : HostReg → Word64
  | .ctrl => 0
  | .status => (statusWord s).zeroExtend 64
  | .ilen => s.ilen
  | .hdrWidth => s.hdrWidth.zeroExtend 64
  | .hdrHeight => s.hdrHeight.zeroExtend 64
  | .hdrChannels => s.hdrChannels.zeroExtend 64
  | .hdrColorspace => s.hdrColorspace.zeroExtend 64
  | .errKind => BitVec.ofNat 64 (kindCode s.errKind)
  | .errCause => BitVec.ofNat 64 (causeCode s.errCause)
  | .errOffset => s.errOffset
  | .errExpected => s.errExpected
  | .errFound => s.errFound
  | .pxcnt => s.pxcnt.zeroExtend 64
  | .olen => s.opos

/-- A host read of PB: only in phase DONE (R27, D34); elsewhere, and at an element that holds no value, it has no meaning (U11). -/
def readPixel (s : State) (a : Nat) : Option Pixel := if doneFlag s then pbRead s a else none

/-- A host read of OUT (R60). -/
def readOut (s : State) (a : Nat) : Option Byte := s.out[a]?

/-- A write of ILEN: ignored while BUSY (R35). -/
def writeIlen (v : Word64) (s : State) : State := if busy s then s else { s with ilen := v }

/-- The host places bytes in IN (R270 step 1): not a move while BUSY (R271, U8). -/
def placeIn (offset : Nat) (bytes : List Byte) (s : State) : Result :=
  if busy s then .refused .inputChangedWhileBusy
  else if 2 ^ Config.offsetWidth < offset + bytes.length then .fault .inputAddressOutOfRange
  else .next { s with inp := Cells.writeMany s.inp offset bytes }

end Sys2Proof.Machine
end

