-- ==== Sys2Proof/Machine/Checksum.lean ====
section
/-! DEFINITION. The checksum generators CK (41_checksums.md). -/
namespace Sys2Proof.Machine

/-- The reflected polynomial (R162). -/
abbrev crcPoly : Word32 := 0xEDB88320

/-- One of the eight shift steps of R162. -/
def crcShift (c : Word32) : Word32 := if c.getLsbD 0 then (c >>> 1) ^^^ crcPoly else c >>> 1

/-- `n` shift steps. -/
def crcShifts : Nat → Word32 → Word32
  | 0, c => c
  | n + 1, c => crcShifts n (crcShift c)

/-- CRC.UPDATE on a register value (R162). -/
def crcStep (c : Word32) (v : Byte) : Word32 := crcShifts 8 (c ^^^ v.zeroExtend 32)

/-- CRC.UPDATE over a byte sequence in order. -/
def crcSteps (c : Word32) (bytes : List Byte) : Word32 := bytes.foldl crcStep c

/-- `crc32(s)` (R163). -/
def crc32 (bytes : List Byte) : Word32 := crcSteps 0xFFFFFFFF bytes ^^^ 0xFFFFFFFF

/-- The modulus of Adler-32 (R167). -/
abbrev adlerMod : Nat := 65521

/-- ADLER.UPDATE on a pair of register values; the second line uses the new first sum (R167). -/
def adlerStep (ab : BitVec 16 × BitVec 16) (v : Byte) : BitVec 16 × BitVec 16 :=
  let a := BitVec.ofNat 16 ((ab.1.toNat + v.toNat) % adlerMod)
  (a, BitVec.ofNat 16 ((ab.2.toNat + a.toNat) % adlerMod))

/-- ADLER.UPDATE over a byte sequence in order. -/
def adlerSteps (ab : BitVec 16 × BitVec 16) (bytes : List Byte) : BitVec 16 × BitVec 16 :=
  bytes.foldl adlerStep ab

/-- The value of ADLER.FINAL: the second sum in the high half (R168). -/
def adlerValue (ab : BitVec 16 × BitVec 16) : Word32 :=
  (ab.2.zeroExtend 32 <<< 16) ||| ab.1.zeroExtend 32

/-- `adler32(s)` (R168). -/
def adler32 (bytes : List Byte) : Word32 := adlerValue (adlerSteps (1, 0) bytes)

/-- `x[crc] <- 0xFFFFFFFF` (R161). -/
def crcInit (s : State) : State := { s with crc := 0xFFFFFFFF }

/-- Feed bytes to the CRC register in order (R162, R165). -/
def crcFeed (bytes : List Byte) (s : State) : State := { s with crc := crcSteps s.crc bytes }

/-- The result of CRC.FINAL goes to the unit that issued it; `crc` is unchanged (R163). The result port is the model's (log 7). -/
def crcFinal (s : State) : State := { s with ckOut := s.crc ^^^ 0xFFFFFFFF }

/-- `x[adler_a] <- 1; x[adler_b] <- 0` (R166). -/
def adlerInit (s : State) : State := { s with adlerA := 1, adlerB := 0 }

/-- Feed bytes to the Adler-32 registers in order (R167). -/
def adlerFeed (bytes : List Byte) (s : State) : State :=
  { s with
    adlerA := (adlerSteps (s.adlerA, s.adlerB) bytes).1
    adlerB := (adlerSteps (s.adlerA, s.adlerB) bytes).2 }

/-- The result of ADLER.FINAL (R168), on the result port (log 7). -/
def adlerFinal (s : State) : State := { s with ckOut := adlerValue (s.adlerA, s.adlerB) }

/-- CRC.INIT (R161). -/
def execCrcInit (s : State) : Result := .next (crcInit s)

/-- CRC.UPDATE (R162). -/
def execCrcUpdate (v : Byte) (s : State) : Result := .next (crcFeed [v] s)

/-- CRC.FINAL (R163). -/
def execCrcFinal (s : State) : Result := .next (crcFinal s)

/-- ADLER.INIT (R166). -/
def execAdlerInit (s : State) : Result := .next (adlerInit s)

/-- ADLER.UPDATE (R167). -/
def execAdlerUpdate (v : Byte) (s : State) : Result := .next (adlerFeed [v] s)

/-- ADLER.FINAL (R168). -/
def execAdlerFinal (s : State) : Result := .next (adlerFinal s)

end Sys2Proof.Machine
end

