-- ==== Sys2Proof/Machine/Deflate.lean ====
section
/-! DEFINITION. The deflate packer DP (43_deflate_packer.md): zlib wrapper, bit writer, stored blocks. -/
namespace Sys2Proof.Machine

/-- One bit of BITS.PUT: into `bitbuf` at `bitcnt`; a full byte is emitted (R203). -/
def putBit (b : Bool) (s : State) : State :=
  let buf := s.bitbuf ||| (BitVec.ofBool b).zeroExtend 8 <<< s.bitcnt.toNat
  if s.bitcnt.toNat + 1 = 8 then { emitZs [buf] s with bitbuf := 0, bitcnt := 0 }
  else { s with bitbuf := buf, bitcnt := s.bitcnt + 1 }

/-- BITS.PUT(v, k): the k low bits of v, least significant first (R203). -/
def bitsPut (v : BitVec 16) (k : Nat) (s : State) : State :=
  ((List.range k).map v.getLsbD).foldl (fun s b => putBit b s) s

/-- BITS.ALIGN (R204). -/
def bitsAlign (s : State) : State :=
  if s.bitcnt = 0 then s else { emitZs [s.bitbuf] s with bitbuf := 0, bitcnt := 0 }

/-- n, the number of stored blocks of `len` payload bytes (R210). -/
def blockCount (cfg : Params) (len : Nat) : Nat := max 1 ((len + cfg.blockMax - 1) / cfg.blockMax)

/-- `P_i`, the payload of block i (R210). -/
def blockPiece (cfg : Params) (fb : List Byte) (i : Nat) : List Byte :=
  (fb.drop (i * cfg.blockMax)).take cfg.blockMax

/-- `BFINAL_i` (R210). -/
def finalFlag (cfg : Params) (len i : Nat) : Bool := decide (i + 1 = blockCount cfg len)

/-- DEFLATE.STORED of a payload with its final flag: header bits (R207), BITS.ALIGN, LEN, NLEN, raw bytes (R206), and ADLER.UPDATE on each payload byte as it passes (R213). -/
def storedBlock (final : Bool) (piece : List Byte) (s : State) : State :=
  let s := bitsPut ((BitVec.ofBool final).zeroExtend 16) 1 s
  let s := bitsAlign (bitsPut 0 2 s)
  let s := emitZs (le16 (BitVec.ofNat 16 piece.length)) s
  let s := emitZs (le16 (~~~ BitVec.ofNat 16 piece.length)) s
  { adlerFeed piece (emitZs piece s) with blk := s.blk + 1 }

/-- DEFLATE.STORED(`blk`) for the parameters `cfg` (R206, R210). -/
def deflateStoredWith (cfg : Params) (s : State) : Result :=
  if blockCount cfg s.fb.length ≤ s.blk.toNat then .refused .noSuchBlock
  else
    .next (storedBlock (finalFlag cfg s.fb.length s.blk.toNat) (blockPiece cfg s.fb s.blk.toNat) s)

/-- The work of phase DEFLATE before ZLIB.HEADER (R213, first line). -/
def enterDeflate (s : State) : State := adlerInit { s with bitbuf := 0, bitcnt := 0, blk := 0 }

/-- ZLIB.HEADER (R202): two constant bytes. -/
def execZlibHeader (s : State) : Result := .next (emitZs [0x78, 0x01] s)

/-- BITS.PUT (R203). -/
def execBitsPut (v : BitVec 16) (k : Nat) (s : State) : Result := .next (bitsPut v k s)

/-- BITS.ALIGN (R204). -/
def execBitsAlign (s : State) : Result := .next (bitsAlign s)

/-- DEFLATE.STORED (R206) of this hardware. -/
def execDeflateStored (s : State) : Result := deflateStoredWith Config.hw s

/-- ZLIB.TRAILER (R212): the Adler-32 of all of FB, big-endian. -/
def execZlibTrailer (s : State) : Result :=
  .next (emitZs (be32 (adler32 s.fb)) { s with ckOut := adler32 s.fb })

end Sys2Proof.Machine
end

