-- ==== Sys2Proof/Machine/Filter.lean ====
section
/-! DEFINITION. The scanline filter selector FS (42_scanline_filter.md), both values of FILTER_MODE. -/
namespace Sys2Proof.Machine

/-- The raw bytes of row y (R182); none if a pixel of the row holds no value (R27). -/
def rawRow (s : State) (y : Nat) : Option (List Byte) :=
  (pbReadMany s (y * s.hdrWidth.toNat) s.hdrWidth.toNat).map fun ps =>
    ps.flatMap (pixelBytes s.hdrChannels)

/-- The Paeth predictor (R187), signed intermediate values, comparisons in the order a, b, c. -/
def paeth (a b c : Byte) : Byte :=
  let p : Int := (a.toNat : Int) + b.toNat - c.toNat
  let pa := (p - a.toNat).natAbs
  let pb := (p - b.toNat).natAbs
  let pc := (p - c.toNat).natAbs
  if pa ≤ pb ∧ pa ≤ pc then a else if pb ≤ pc then b else c

/-- `pred_t(i)` for the neighbours a (left), b (above), c (above left) (R186). Types are 0 to 4; the score loop uses no other. -/
def predictor (t : Nat) (a b c : Byte) : Byte :=
  if t = 0 then 0
  else if t = 1 then a
  else if t = 2 then b
  else if t = 3 then BitVec.ofNat 8 ((a.toNat + b.toNat) / 2)
  else paeth a b c

/-- `f_t(i)` (R185, R186): `raw` is row y, `above` row y - 1 (empty for row 0: its bytes read 0), `bpp` bytes per pixel. -/
def filteredByte (t bpp : Nat) (raw above : List Byte) (i : Nat) : Byte :=
  let a := if bpp ≤ i then raw.getD (i - bpp) 0 else 0
  let b := above.getD i 0
  let c := if bpp ≤ i then above.getD (i - bpp) 0 else 0
  raw.getD i 0 - predictor t a b c

/-- The filtered bytes of a row for type t (R186). -/
def filteredRow (t bpp : Nat) (raw above : List Byte) : List Byte :=
  (List.range raw.length).map (filteredByte t bpp raw above)

/-- `score_t`: each filtered byte read as a signed delta, its magnitude summed (R188). -/
def score (bytes : List Byte) : Nat := (bytes.map fun f => f.toInt.natAbs).sum

/-- The better of two types: the smaller score, then the smaller type (R188). -/
def betterType (bpp : Nat) (raw above : List Byte) (t u : Nat) : Nat :=
  if score (filteredRow u bpp raw above) < score (filteredRow t bpp raw above) then u else t

/-- The type R188 selects for a row. -/
def selectType (bpp : Nat) (raw above : List Byte) : Nat :=
  [1, 2, 3, 4].foldl (betterType bpp raw above) 0

/-- The filter-type byte and the filtered bytes of a row (R183, R189). -/
def rowBytes (mode : FilterMode) (bpp : Nat) (raw above : List Byte) : List Byte :=
  match mode with
  | .none => 0 :: raw
  | .adaptive =>
    BitVec.ofNat 8 (selectType bpp raw above) :: filteredRow (selectType bpp raw above) bpp raw above

/-- The row above row y: no bytes for row 0 (R185); FILTER_MODE = NONE does not read it (R29, R183). -/
def rowAbove (mode : FilterMode) (s : State) (y : Nat) : Option (List Byte) :=
  match mode with
  | .none => some []
  | .adaptive => if y = 0 then some [] else rawRow s (y - 1)

/-- The encode-side argument check (R181): the state after its raise, if it raises. -/
def encodeCheck (s : State) : Option State :=
  if s.hdrChannels ≠ 3 ∧ s.hdrChannels ≠ 4 then
    some (raise .encBadChannels 0 3 (s.hdrChannels.zeroExtend 64) s)
  else if s.hdrWidth = 0 ∨ s.hdrHeight = 0 then some (raise .encZeroDim 0 1 0 s)
  else none

/-- FILT.ROW without the argument check (R183, R189): row `frow` for the parameters `cfg`. -/
def emitRow (cfg : Params) (s : State) : Result :=
  if s.hdrHeight ≤ s.frow then .refused .noSuchRow
  else
    match rawRow s s.frow.toNat, rowAbove cfg.filterMode s s.frow.toNat with
    | some raw, some above =>
      .next { emitFb (rowBytes cfg.filterMode s.hdrChannels.toNat raw above) s with frow := s.frow + 1 }
    | _, _ => .refused .pixelHoldsNoValue

/-- FILT.ROW for the parameters `cfg`; the first row's also makes the argument check (R181, R262). -/
def filtRowWith (cfg : Params) (s : State) : Result :=
  if s.frow = 0 then
    match encodeCheck s with
    | some t => .next t
    | none => emitRow cfg s
  else emitRow cfg s

/-- FILT.ROW of this hardware: FILTER_MODE = NONE (R7, R183). -/
def execFiltRow (s : State) : Result := filtRowWith Config.hw s

end Sys2Proof.Machine
end

