-- ==== Sys2Proof/WellFormed.lean ====
section
/-! DEFINITION. Which terms of `Instr` stand for an instruction of the spec: the operand ranges of R100, R105, R203, R233. -/
namespace Sys2Proof

/-- The magic "qoif" as a big-endian number (R98). -/
abbrev qoiMagic : Word32 := 0x716F6966

/-- The end marker as a big-endian number (R99). -/
abbrev endMarkerValue : Word64 := 0x0000000000000001

/-- The largest data length of a PNG chunk (R233). -/
abbrev chunkDataMax : Nat := 2 ^ 31 - 1

/-- The operand ranges; an operand whose type already has its range is not checked again. -/
def wellFormed : Instr → Bool
  | .rgb _ _ _ => true
  | .rgba _ _ _ _ => true
  | .index _ => true
  | .diff dr dg db => decide ((-2 ≤ dr ∧ dr ≤ 1) ∧ (-2 ≤ dg ∧ dg ≤ 1) ∧ (-2 ≤ db ∧ db ≤ 1))
  | .luma dg drdg dbdg =>
    decide ((-32 ≤ dg ∧ dg ≤ 31) ∧ (-8 ≤ drdg ∧ drdg ≤ 7) ∧ (-8 ≤ dbdg ∧ dbdg ≤ 7))
  | .run count => decide (1 ≤ count ∧ count ≤ 62)
  | .header magic _ _ _ _ => decide (magic = qoiMagic)
  | .endMarker marker => decide (marker = endMarkerValue)
  | .start => true
  | .sreset => true
  | .crcInit => true
  | .crcUpdate _ => true
  | .crcFinal => true
  | .adlerInit => true
  | .adlerUpdate _ => true
  | .adlerFinal => true
  | .filtRow => true
  | .zlibHeader => true
  | .bitsPut v k => decide ((1 ≤ k ∧ k ≤ 16) ∧ v.toNat < 2 ^ k)
  | .bitsAlign => true
  | .deflateStored => true
  | .zlibTrailer => true
  | .pngSignature => true
  | .pngChunk _ data => decide (data.length ≤ chunkDataMax)
  | .pngIhdr => true
  | .pngIdat _ => true
  | .pngIend => true

/-- The instruction is one the spec's notation can write (R105) or one a unit may issue (R203, R233). -/
abbrev WellFormed (i : Instr) : Prop := wellFormed i = true

end Sys2Proof
end

