-- ==== Sys2Proof/Machine/Png.lean ====
section
/-! DEFINITION. The PNG chunk framer PF (44_png_framer.md). -/
namespace Sys2Proof.Machine

/-- The PNG signature (R231). -/
def pngSignatureBytes : List Byte := [0x89, 0x50, 0x4E, 0x47, 0x0D, 0x0A, 0x1A, 0x0A]

/-- "IHDR" (R234). -/
abbrev typeIhdr : Word32 := 0x49484452

/-- "IDAT" (R234). -/
abbrev typeIdat : Word32 := 0x49444154

/-- "IEND" (R234). -/
abbrev typeIend : Word32 := 0x49454E44

/-- The bytes of a framed chunk (R233). -/
def chunkBytes (type : Word32) (data : List Byte) : List Byte :=
  be32 (BitVec.ofNat 32 data.length) ++ be32 type ++ data ++ be32 (crc32 (be32 type ++ data))

/-- PNG.CHUNK(type, data) (R233): CRC.INIT, CRC.UPDATE over the type and the data, CRC.FINAL (R163, R339); the framed bytes go to OUT. -/
def frameChunk (type : Word32) (data : List Byte) (s : State) : Result :=
  if chunkDataMax < data.length then .refused .chunkTooLong
  else
    .next
      { emitOut (chunkBytes type data) s with
        crc := crcSteps 0xFFFFFFFF (be32 type ++ data), ckOut := crc32 (be32 type ++ data) }

/-- The color type of a channel count (R237). -/
def colorType (channels : Byte) : Option Byte :=
  if channels = 3 then some 2 else if channels = 4 then some 6 else none

/-- The 13 payload bytes of IHDR (R236). -/
def ihdrPayload (w h : Word32) (color : Byte) : List Byte :=
  be32 w ++ be32 h ++ [8, color, 0, 0, 0]

/-- m, the number of IDAT chunks for `len` bytes of ZS (R240). -/
def pieceCount (cfg : Params) (len : Nat) : Nat := (len + cfg.idatMax - 1) / cfg.idatMax

/-- `D_j` (R240). -/
def idatPiece (cfg : Params) (zs : List Byte) (j : Nat) : List Byte :=
  (zs.drop (j * cfg.idatMax)).take cfg.idatMax

/-- PNG.IDAT(j) for the parameters `cfg` (R241). -/
def idatWith (cfg : Params) (j : Nat) (s : State) : Result :=
  if pieceCount cfg s.zs.length ≤ j then .refused .noSuchPiece
  else frameChunk typeIdat (idatPiece cfg s.zs j) s

/-- PNG.SIGNATURE (R231). -/
def execPngSignature (s : State) : Result := .next (emitOut pngSignatureBytes s)

/-- PNG.CHUNK (R233). -/
def execPngChunk (type : Word32) (data : List Byte) (s : State) : Result := frameChunk type data s

/-- PNG.IHDR (R235). -/
def execPngIhdr (s : State) : Result :=
  match colorType s.hdrChannels with
  | some color => frameChunk typeIhdr (ihdrPayload s.hdrWidth s.hdrHeight color) s
  | none => .refused .noColorType

/-- PNG.IDAT (R241) of this hardware. -/
def execPngIdat (piece : Nat) (s : State) : Result := idatWith Config.hw piece s

/-- PNG.IEND (R243). -/
def execPngIend (s : State) : Result := frameChunk typeIend [] s

end Sys2Proof.Machine
end

