-- ==== Sys2Proof/Machine/Qoi.lean ====
section
/-! DEFINITION. The QOI decoder QD (40_qoi_decoder.md): the six chunks, HEADER and END. -/
namespace Sys2Proof.Machine

/-- The end of a literal, DIFF or LUMA chunk of `n` bytes that made the pixel p: produce, cache_put, `prev`, then `pc` (R124, R129). -/
def putPixel (n : Nat) (p : Pixel) (s : State) : Result :=
  andThen (produce p s) fun s => .next (advancePc n (setPrev p (cachePut p s)))

/-- RGB (R130): alpha carries over from `prev`. -/
def execRgb (r g b : Byte) (s : State) : Result :=
  withChunk 4 s fun s => putPixel 4 ⟨r, g, b, s.prev.a⟩ s

/-- RGBA (R131): legal whatever `hdr_channels` is. -/
def execRgba (r g b a : Byte) (s : State) : Result :=
  withChunk 5 s fun s => putPixel 5 ⟨r, g, b, a⟩ s

/-- INDEX (R132): the cache is not written. -/
def execIndex (slot : Fin 64) (s : State) : Result :=
  withChunk 1 s fun s =>
    andThen (produce (cacheRead s slot) s) fun t => .next (advancePc 1 (setPrev (cacheRead s slot) t))

/-- DIFF (R134). -/
def execDiff (dr dg db : Int) (s : State) : Result :=
  withChunk 1 s fun s => putPixel 1 (addDelta s.prev dr dg db) s

/-- LUMA (R136): dr = dg + dr_dg, db = dg + db_dg, formed as signed integers. -/
def execLuma (dg drdg dbdg : Int) (s : State) : Result :=
  withChunk 2 s fun s => putPixel 2 (addDelta s.prev (dg + drdg) dg (dg + dbdg)) s

/-- RUN (R138), after its overflow check (R139); CACHE and `prev` are not written. -/
def execRun (count : Nat) (s : State) : Result :=
  withChunk 1 s fun s =>
    if s.pxtotal.toNat - s.pxcnt.toNat < count then
      .next (raise .runOverflow s.ipos (BitVec.ofNat 64 (s.pxtotal.toNat - s.pxcnt.toNat))
        (BitVec.ofNat 64 count) s)
    else andThen (produceMany s.prev count s) fun t => .next (advancePc 1 t)

/-- The size check of R141 on exact products, with the capacity of `cfg`; then the header's writes (R122). -/
def latchHeader (cfg : Params) (w h : Word32) (c cs : Byte) (s : State) : State :=
  if 2 ^ 32 ≤ w.toNat * h.toNat * c.toNat then
    raise .sizeOverflow 4 0xFFFFFFFF
      (BitVec.ofNat 64 (min (w.toNat * h.toNat * c.toNat) (2 ^ 64 - 1))) s
  else if cfg.maxPixels < w.toNat * h.toNat then
    raise .capacity 4 (BitVec.ofNat 64 cfg.maxPixels) (BitVec.ofNat 64 (w.toNat * h.toNat)) s
  else
    { s with
      hdrWidth := w, hdrHeight := h, hdrChannels := c, hdrColorspace := cs,
      pxtotal := BitVec.ofNat 32 (w.toNat * h.toNat), ipos := 14 }

/-- HEADER (R122), its checks in the order written, for the parameters `cfg`. -/
def headerWith (cfg : Params) (magic w h : Word32) (c cs : Byte) (s : State) : State :=
  if s.ilen.toNat < 14 then raise .truncatedHeader s.ilen 14 s.ilen s
  else if magic ≠ qoiMagic then raise .badMagic 0 (qoiMagic.zeroExtend 64) (magic.zeroExtend 64) s
  else if w = 0 then raise .zeroWidth 4 1 0 s
  else if h = 0 then raise .zeroHeight 8 1 0 s
  else if c ≠ 3 ∧ c ≠ 4 then raise .badChannels 12 3 (c.zeroExtend 64) s
  else if cs ≠ 0 ∧ cs ≠ 1 then raise .badColorspace 13 0 (cs.zeroExtend 64) s
  else latchHeader cfg w h c cs s

/-- HEADER (R122, R141) of this hardware. -/
def execHeader (magic w h : Word32) (c cs : Byte) (s : State) : Result :=
  .next (headerWith Config.hw magic w h c cs s)

/-- BAD_END_MARKER for a stream that stops before the marker's last byte: what is found is the remaining bytes as a big-endian number (R144, R284). -/
def raiseShortMarker (s : State) : State :=
  raise .badEndMarker s.ipos endMarkerValue
    (BitVec.ofNat 64 (beNat (inWindow s s.ipos.toNat 8))) s

/-- Trailing data (R145), after the marker. -/
def trailingCheck (cfg : Params) (s : State) : State :=
  if s.ipos.toNat < s.ilen.toNat ∧ cfg.trailing = .reject then
    raise .trailingData s.ipos 0 (s.ilen - s.ipos) s
  else s

/-- END (R144) on the 8 bytes `marker`, for the parameters `cfg`. -/
def endWith (cfg : Params) (marker : Word64) (s : State) : State :=
  if s.ilen.toNat < s.ipos.toNat + 8 then raiseShortMarker s
  else if marker ≠ endMarkerValue then raise .badEndMarker s.ipos endMarkerValue marker s
  else trailingCheck cfg (advancePc 8 s)

/-- END (R144, R145) of this hardware. -/
def execEndMarker (marker : Word64) (s : State) : Result := .next (endWith Config.hw marker s)

end Sys2Proof.Machine
end

