-- ==== Sys2Proof/Machine/Dispatch.lean ====
section
/-! DEFINITION. The one dispatch from an instruction to its meaning. -/
namespace Sys2Proof.Machine

def exec (i : Instr) (s : State) : Host.Outcome State Fault Refusal :=
  match i with
  | .rgb r g b => Sys2Proof.Machine.execRgb r g b s
  | .rgba r g b a => Sys2Proof.Machine.execRgba r g b a s
  | .index slot => Sys2Proof.Machine.execIndex slot s
  | .diff dr dg db => Sys2Proof.Machine.execDiff dr dg db s
  | .luma dg drdg dbdg => Sys2Proof.Machine.execLuma dg drdg dbdg s
  | .run count => Sys2Proof.Machine.execRun count s
  | .header magic w h c cs => Sys2Proof.Machine.execHeader magic w h c cs s
  | .endMarker marker => Sys2Proof.Machine.execEndMarker marker s
  | .start => Sys2Proof.Machine.execStart s
  | .sreset => Sys2Proof.Machine.execSreset s
  | .crcInit => Sys2Proof.Machine.execCrcInit s
  | .crcUpdate v => Sys2Proof.Machine.execCrcUpdate v s
  | .crcFinal => Sys2Proof.Machine.execCrcFinal s
  | .adlerInit => Sys2Proof.Machine.execAdlerInit s
  | .adlerUpdate v => Sys2Proof.Machine.execAdlerUpdate v s
  | .adlerFinal => Sys2Proof.Machine.execAdlerFinal s
  | .filtRow => Sys2Proof.Machine.execFiltRow s
  | .zlibHeader => Sys2Proof.Machine.execZlibHeader s
  | .bitsPut v k => Sys2Proof.Machine.execBitsPut v k s
  | .bitsAlign => Sys2Proof.Machine.execBitsAlign s
  | .deflateStored => Sys2Proof.Machine.execDeflateStored s
  | .zlibTrailer => Sys2Proof.Machine.execZlibTrailer s
  | .pngSignature => Sys2Proof.Machine.execPngSignature s
  | .pngChunk type data => Sys2Proof.Machine.execPngChunk type data s
  | .pngIhdr => Sys2Proof.Machine.execPngIhdr s
  | .pngIdat piece => Sys2Proof.Machine.execPngIdat piece s
  | .pngIend => Sys2Proof.Machine.execPngIend s

end Sys2Proof.Machine
end

