-- ==== Sys2Proof/Decode.lean ====
section
/-! DEFINITION. The decoder, total on any bytes and rejecting by name, and the encoder written from the same tables (30_encoding.md). -/
namespace Sys2Proof
open Sys2Proof.Machine

/-- Where an encoding is looked up. A lead byte never tells HEADER or END: they are selected by position (R98, R99, R121), and the commands
are values written to CTRL (R36). -/
inductive CodeSpace
  /-- IN[0..14) in phase DEC_HDR. -/
  | header
  /-- A chunk at `pc` in phase DEC_BODY. -/
  | chunk
  /-- The 8 bytes at `pc` in phase DEC_END. -/
  | endMarker
  /-- A value written to CTRL. -/
  | ctrl
deriving DecidableEq, Repr

/-- Why bytes hold no instruction. There is no illegal lead byte (R102): every rejection of a stream is a truncation. -/
inductive Reject
  /-- No lead byte (R124). -/
  | noLeadByte
  /-- A chunk of `need` bytes with only `got` of them there (R126). -/
  | truncatedChunk (need got : Nat)
  /-- Fewer than 14 header bytes (R122). -/
  | truncatedHeader (got : Nat)
  /-- Fewer than 8 marker bytes (R144). -/
  | truncatedMarker (got : Nat)
  /-- A CTRL value with bits 1:0 zero, or no value: nothing happens (R36). -/
  | noCommand
deriving DecidableEq, Repr

/-- What a decoder answers: an instruction and the bytes after it, or a rejection. -/
abbrev Decoded := Except Reject (Instr × List Byte)

/-- The length of a chunk, from its lead byte alone (R104). -/
def chunkLen (b1 : Byte) : Nat :=
  if b1 = 0xFE then 4 else if b1 = 0xFF then 5 else if bits b1 7 6 = 2 then 2 else 1

/-- Operand assembly of a 2-bit DIFF field: bias 2 (R100). -/
def unbias2 (f : Nat) : Int := (f : Int) - 2

/-- Operand assembly of the 6-bit LUMA field: bias 32 (R100). -/
def unbias6 (f : Nat) : Int := (f : Int) - 32

/-- Operand assembly of a 4-bit LUMA field: bias 8 (R100). -/
def unbias4 (f : Nat) : Int := (f : Int) - 8

/-- RGB after its lead byte (R92). -/
def decodeRgb : List Byte → Decoded
  | r :: g :: b :: t => .ok (.rgb r g b, t)
  | short => .error (.truncatedChunk 4 (short.length + 1))

/-- RGBA after its lead byte (R93). -/
def decodeRgba : List Byte → Decoded
  | r :: g :: b :: a :: t => .ok (.rgba r g b a, t)
  | short => .error (.truncatedChunk 5 (short.length + 1))

/-- LUMA after its lead byte (R96). -/
def decodeLuma (b1 : Byte) : List Byte → Decoded
  | b2 :: t => .ok (.luma (unbias6 (bits b1 5 0)) (unbias4 (bits b2 7 4)) (unbias4 (bits b2 3 0)), t)
  | [] => .error (.truncatedChunk 2 1)

/-- The chunk with lead byte `b1` whose other bytes begin `t`: the whole lead byte first, then its top two bits (R91, R101). -/
def decodeLead (b1 : Byte) (t : List Byte) : Decoded :=
  if b1 = 0xFE then decodeRgb t
  else if b1 = 0xFF then decodeRgba t
  else if bits b1 7 6 = 0 then .ok (.index (Fin.ofNat 64 (bits b1 5 0)), t)
  else if bits b1 7 6 = 1 then
    .ok (.diff (unbias2 (bits b1 5 4)) (unbias2 (bits b1 3 2)) (unbias2 (bits b1 1 0)), t)
  else if bits b1 7 6 = 2 then decodeLuma b1 t
  else .ok (.run (bits b1 5 0 + 1), t)

/-- One chunk (R90, R124). -/
def decodeChunk : List Byte → Decoded
  | [] => .error .noLeadByte
  | b1 :: t => decodeLead b1 t

/-- The 14 header bytes in the order magic, width, height, channels, colorspace (R98, R66). -/
def decodeHeader : List Byte → Decoded
  | m0 :: m1 :: m2 :: m3 :: w0 :: w1 :: w2 :: w3 :: h0 :: h1 :: h2 :: h3 :: c :: cs :: t =>
    .ok (.header (u32be m0 m1 m2 m3) (u32be w0 w1 w2 w3) (u32be h0 h1 h2 h3) c cs, t)
  | short => .error (.truncatedHeader short.length)

/-- The 8 bytes at the end marker's place (R99, R144). -/
def decodeEnd : List Byte → Decoded
  | e0 :: e1 :: e2 :: e3 :: e4 :: e5 :: e6 :: e7 :: t =>
    .ok (.endMarker (u64be e0 e1 e2 e3 e4 e5 e6 e7), t)
  | short => .error (.truncatedMarker short.length)

/-- The command in a value written to CTRL: bit 1 is SRESET and wins, bit 0 is START, other bits are ignored (R36). -/
def decodeCtrlValue (v : Word64) : Option Instr :=
  if v.getLsbD 1 then some .sreset else if v.getLsbD 0 then some .start else none

/-- A CTRL value as one byte (CTRL is 2 bits wide, R35). -/
def decodeCtrl : List Byte → Decoded
  | [] => .error .noCommand
  | b :: t =>
    match decodeCtrlValue (b.zeroExtend 64) with
    | some i => .ok (i, t)
    | none => .error .noCommand

/-- The decoder of each code space. -/
def decode : CodeSpace → List Byte → Decoded
  | .header, s => decodeHeader s
  | .chunk, s => decodeChunk s
  | .endMarker, s => decodeEnd s
  | .ctrl, s => decodeCtrl s

/-- The code space an instruction is written in; the operations of files 41 to 44 have no encoding (opcode_table.json). -/
def codeSpace : Instr → Option CodeSpace
  | .rgb _ _ _ => some .chunk
  | .rgba _ _ _ _ => some .chunk
  | .index _ => some .chunk
  | .diff _ _ _ => some .chunk
  | .luma _ _ _ => some .chunk
  | .run _ => some .chunk
  | .header _ _ _ _ _ => some .header
  | .endMarker _ => some .endMarker
  | .start => some .ctrl
  | .sreset => some .ctrl
  | .crcInit => none
  | .crcUpdate _ => none
  | .crcFinal => none
  | .adlerInit => none
  | .adlerUpdate _ => none
  | .adlerFinal => none
  | .filtRow => none
  | .zlibHeader => none
  | .bitsPut _ _ => none
  | .bitsAlign => none
  | .deflateStored => none
  | .zlibTrailer => none
  | .pngSignature => none
  | .pngChunk _ _ => none
  | .pngIhdr => none
  | .pngIdat _ => none
  | .pngIend => none

/-- The bytes of an instruction (R36, R98, R99, R105); an operation without an encoding has none. -/
def encode : Instr → List Byte
  | .rgb r g b => [0xFE, r, g, b]
  | .rgba r g b a => [0xFF, r, g, b, a]
  | .index slot => [BitVec.ofNat 8 slot.val]
  | .diff dr dg db =>
    [BitVec.ofNat 8 (0x40 ||| (dr + 2).toNat <<< 4 ||| (dg + 2).toNat <<< 2 ||| (db + 2).toNat)]
  | .luma dg drdg dbdg =>
    [BitVec.ofNat 8 (0x80 ||| (dg + 32).toNat),
     BitVec.ofNat 8 ((drdg + 8).toNat <<< 4 ||| (dbdg + 8).toNat)]
  | .run count => [BitVec.ofNat 8 (0xC0 ||| (count - 1))]
  | .header magic w h c cs => be32 magic ++ be32 w ++ be32 h ++ [c, cs]
  | .endMarker marker => be64 marker
  | .start => [0x01]
  | .sreset => [0x02]
  | .crcInit => []
  | .crcUpdate _ => []
  | .crcFinal => []
  | .adlerInit => []
  | .adlerUpdate _ => []
  | .adlerFinal => []
  | .filtRow => []
  | .zlibHeader => []
  | .bitsPut _ _ => []
  | .bitsAlign => []
  | .deflateStored => []
  | .zlibTrailer => []
  | .pngSignature => []
  | .pngChunk _ _ => []
  | .pngIhdr => []
  | .pngIdat _ => []
  | .pngIend => []

/-- `n` bytes of a table word, the byte in bits 7:0 first; bits at `nbits` and above are 0. -/
def tableBytes (n nbits w : Nat) : List Byte :=
  (List.range n).map fun k => BitVec.ofNat 8 ((w % 2 ^ nbits) >>> (8 * k))

/-- The code space of a table word. An 8-bit word 1, 2 or 3 is read as a CTRL value; every other word of up to 5 bytes as a chunk;
longer ones by their length (DESIGN CHOICE, log 16: the table numbers the chunks and the commands from the same bit 0). -/
def tableSpace (nbits w : Nat) : CodeSpace :=
  if nbits ≤ 8 ∧ 1 ≤ w % 2 ^ nbits ∧ w % 2 ^ nbits ≤ 3 then .ctrl
  else if nbits ≤ 40 then .chunk
  else if nbits ≤ 64 then .endMarker
  else .header

/-- How many bytes the longest instruction of a code space has. -/
def spaceBytes : CodeSpace → Nat
  | .header => 14
  | .chunk => 5
  | .endMarker => 8
  | .ctrl => 1

/-- What the decoder reads from an instruction whose table bits are `w`, all higher bits 0. -/
def decodeTableWord (nbits w : Nat) : Option Instr :=
  match decode (tableSpace nbits w) (tableBytes (spaceBytes (tableSpace nbits w)) nbits w) with
  | .ok (i, _) => some i
  | .error _ => none

end Sys2Proof
end

