-- ==== Sys2Proof/Machine/Sequencer.lean ====
section
/-! DEFINITION. The sequencer SEQ (45_pipeline_control.md R260 to R267): what it issues in each phase, how it fetches an item of IN, and how the phase moves after it. -/
namespace Sys2Proof.Machine

/-- What the sequencer does next. -/
inductive Issue
  /-- Run an operation, then move the phase. -/
  | run (i : Instr)
  /-- No operation: the state goes to `s`. -/
  | settle (s : State)

/-- The exception of bytes that hold no instruction: TRUNCATED_CHUNK (R124, R126), TRUNCATED_HEADER (R122), BAD_END_MARKER (R144). A CTRL value without a command does nothing (R36). -/
def raiseReject (r : Reject) (s : State) : State :=
  match r with
  | .noLeadByte => raise .truncatedChunk s.ipos 1 0 s
  | .truncatedChunk need got =>
    raise .truncatedChunk s.ipos (BitVec.ofNat 64 need) (BitVec.ofNat 64 got) s
  | .truncatedHeader _ => raise .truncatedHeader s.ilen 14 s.ilen s
  | .truncatedMarker _ => raiseShortMarker s
  | .noCommand => s

/-- Fetch the item of a code space at offset `a` of IN. -/
def fetch (sp : CodeSpace) (a : Nat) (s : State) : Issue :=
  match decode sp (inWindow s a (spaceBytes sp)) with
  | .ok (i, _) => .run i
  | .error r => .settle (raiseReject r s)

/-- The next operation of phase DEFLATE (R213): ZLIB.HEADER first, then the blocks, then ZLIB.TRAILER. ZS is empty on entry and `blk` counts the blocks (DEDUCED, log 11). -/
def nextDeflate (cfg : Params) (s : State) : Instr :=
  if s.zs.length = 0 then .zlibHeader
  else if s.blk.toNat < blockCount cfg s.fb.length then .deflateStored
  else .zlibTrailer

/-- The next operation of phase FRAME (R232): signature, IHDR, the IDAT pieces, IEND. `opos` tells how far OUT has come: the pieces before piece j
fill j x (12 + IDAT_MAX) bytes after offset 33 (R73; DEDUCED, log 11). -/
def nextFrame (cfg : Params) (s : State) : Instr :=
  if s.opos.toNat = 0 then .pngSignature
  else if s.opos.toNat = 8 then .pngIhdr
  else if s.opos.toNat < 33 + 12 * pieceCount cfg s.zs.length + s.zs.length then
    .pngIdat ((s.opos.toNat - 33) / (12 + cfg.idatMax))
  else .pngIend

/-- What the sequencer does next in each phase (R121, R184, R213, R232, R261); IDLE, DONE and ERROR are inactive (R313). -/
def issue (s : State) : Issue :=
  match s.phase with
  | .idle => .settle s
  | .decHdr => fetch .header 0 s
  | .decBody =>
    if s.pxcnt < s.pxtotal then fetch .chunk s.ipos.toNat s else .settle { s with phase := .decEnd }
  | .decEnd => fetch .endMarker s.ipos.toNat s
  | .filter => .run .filtRow
  | .deflate => .run (nextDeflate Config.hw s)
  | .frame => .run (nextFrame Config.hw s)
  | .done => .settle s
  | .error => .settle s

/-- The phase after operation `i` (R261, R143, R184, R213, R232); after a raise it is ERROR and stays. Entering DEFLATE does the first line of R213 (log 11). -/
def advance (i : Instr) (s : State) : State :=
  match s.phase with
  | .idle => s
  | .decHdr => { s with phase := .decBody }
  | .decBody => if s.pxcnt = s.pxtotal then { s with phase := .decEnd } else s
  | .decEnd => { s with phase := .filter }
  | .filter => if s.frow = s.hdrHeight then enterDeflate { s with phase := .deflate } else s
  | .deflate => if i = .zlibTrailer then { s with phase := .frame } else s
  | .frame => if i = .pngIend then { s with phase := .done } else s
  | .done => s
  | .error => s

/-- A state whose very next step runs the item `bytes` of a code space: the bytes stand where the step fetches, and what the fetch needs is set (log 2, 16). -/
def placeItem (sp : CodeSpace) (bytes : List Byte) (s : State) : State :=
  match sp with
  | .ctrl =>
    { s with host := [.write .ctrl (BitVec.ofNat 64 (beNat bytes))] }
  | .header =>
    { s with host := [], phase := .decHdr, ilen := BitVec.ofNat 64 bytes.length,
             inp := Cells.writeMany s.inp 0 bytes }
  | .chunk =>
    { s with host := [], phase := .decBody, ilen := s.ipos + BitVec.ofNat 64 bytes.length,
             inp := Cells.writeMany s.inp s.ipos.toNat bytes,
             pxtotal := if s.pxcnt < s.pxtotal then s.pxtotal else s.pxcnt + 62 }
  | .endMarker =>
    { s with host := [], phase := .decEnd, ilen := s.ipos + BitVec.ofNat 64 bytes.length,
             inp := Cells.writeMany s.inp s.ipos.toNat bytes }

end Sys2Proof.Machine
end

