-- ==== Sys2Proof/Machine/Operate.lean ====
section
/-! DEFINITION. What one step does: what the sequencer issues (R262), or a host move (10_state.md R35, R36, 45_pipeline_control.md R270). -/
namespace Sys2Proof.Machine

/-- The block's own step: run what the sequencer issues, then move the phase. -/
def operate (s : State) : Result :=
  match issue s with
  | .run i => andThen (exec i s) fun t => .next (advance i t)
  | .settle t => .next t

/-- A move of the host or the platform, taken from the queue of `s` (R35, R36, R270, R320). A wait goes back to the head of the queue while BUSY, so that
the later moves find the operation ended (R270 steps 3 to 5). -/
def hostMove (m : HostMove) (s : State) : Result :=
  match m with
  | .placeIn offset bytes => placeIn offset bytes s
  | .write .ctrl v =>
    match decodeCtrlValue v with
    | some i => exec i s
    | none => .next s
  | .write .ilen v => .next (writeIlen v s)
  | .write _ _ => .next s
  | .resetInput => .next (resetEffect s)
  | .poll => operate s
  | .waitEnd => if busy s then operate { s with host := .waitEnd :: s.host } else .next s

end Sys2Proof.Machine
end

