-- ==== Sys2Proof/Machine/Step.lean ====
section
/-! DEFINITION. One step of the machine, and where its next instruction is placed. -/
namespace Sys2Proof.Machine

/-- One step (R262): the host's next move if there is one (log 1), else the sequencer's next operation. -/
def step (s : State) : Host.Outcome State Fault Refusal :=
  match s.host with
  | m :: rest => hostMove m { s with host := rest }
  | [] => operate s

/-- `s` with the instruction of table bits `w` placed so that the very next step fetches and runs it (log 2, 16). -/
def State.withFetchWord (s : State) (nbits w : Nat) : State :=
  placeItem (tableSpace nbits w) (tableBytes (spaceBytes (tableSpace nbits w)) nbits w) s

end Sys2Proof.Machine
end

