-- ==== Sys2Proof/Safety.lean ====
section
/-! DEFINITION. What a safe run of QPC is: the invariant of the reachable states, the closed forms of the intermediate and output sequences (R73, R201, R232), and the predicates the statements use. -/
namespace Sys2Proof.Machine

/-- The header registers after a successful HEADER (R21, R122, R141). -/
abbrev HeaderLegal (s : State) : Prop :=
  0 < s.hdrWidth.toNat ∧ 0 < s.hdrHeight.toNat ∧ (s.hdrChannels = 3 ∨ s.hdrChannels = 4) ∧
    (s.hdrColorspace = 0 ∨ s.hdrColorspace = 1) ∧
    s.hdrWidth.toNat * s.hdrHeight.toNat * s.hdrChannels.toNat < 2 ^ 32 ∧
    s.pxtotal.toNat = s.hdrWidth.toNat * s.hdrHeight.toNat

/-- The header registers before HEADER has succeeded (R35). -/
abbrev HeaderClear (s : State) : Prop :=
  s.hdrWidth = 0 ∧ s.hdrHeight = 0 ∧ s.hdrChannels = 0 ∧ s.hdrColorspace = 0 ∧ s.pxtotal = 0

/-- Bytes of one row of FB: the filter type and the raw bytes (R180). -/
def rowLen (s : State) : Nat := 1 + s.hdrWidth.toNat * s.hdrChannels.toNat

/-- F, the length of FB (R73, R184). -/
def payloadLen (s : State) : Nat := s.hdrHeight.toNat * rowLen s

/-- Z, the length of ZS for F payload bytes (R73, R201). -/
def zlibLen (cfg : Params) (f : Nat) : Nat := 2 + 5 * blockCount cfg f + f + 4

/-- The length of OUT for Z bytes of ZS (R73). -/
def pngLen (cfg : Params) (z : Nat) : Nat := 45 + 12 * pieceCount cfg z + z

/-- The phases before FB exists. -/
abbrev BeforeFilter (s : State) : Prop :=
  s.phase = .idle ∨ s.phase = .decHdr ∨ s.phase = .decBody ∨ s.phase = .decEnd

/-- The phases in which a header has been accepted and no exception raised. -/
abbrev AfterHeader (s : State) : Prop :=
  s.phase = .decBody ∨ s.phase = .decEnd ∨ s.phase = .filter ∨ s.phase = .deflate ∨
    s.phase = .frame ∨ s.phase = .done

/-- IN is canonical, and PB holds exactly the elements below `pxcnt`, or nothing after an exception (R27, R302). -/
abbrev StorageInv (s : State) : Prop :=
  Memory.wf s.inp ∧
    (s.phase = .error → s.pb = []) ∧
    (s.phase ≠ .error → s.pb.map Prod.fst = List.range s.pxcnt.toNat)

/-- The counters: `pxcnt <= pxtotal` (R23), `pc <= ILEN` while an operation runs (R24), `opos` counts OUT (R31). -/
abbrev CounterInv (s : State) : Prop :=
  s.pxcnt.toNat ≤ s.pxtotal.toNat ∧
    (busy s = true → s.ipos.toNat ≤ s.ilen.toNat) ∧
    s.opos.toNat = s.out.length

/-- The unit registers between steps: no partly filled deflate byte (R205), Adler-32 sums below the modulus (R28). -/
abbrev UnitInv (s : State) : Prop :=
  s.bitbuf = 0 ∧ s.bitcnt = 0 ∧ s.adlerA.toNat < adlerMod ∧ s.adlerB.toNat < adlerMod

/-- The error latches: clear unless an exception was raised, and then of the cause's kind (R34, R284, R286). -/
abbrev LatchInv (s : State) : Prop :=
  (s.phase ≠ .error →
    s.errKind = .none ∧ s.errCause = .none ∧ s.errOffset = 0 ∧ s.errExpected = 0 ∧ s.errFound = 0) ∧
  (s.phase = .error →
    s.errCause ≠ .none ∧ s.errCause ≠ .reservedTag ∧ s.errKind = causeKind s.errCause)

/-- What each phase knows of the header and of `pxcnt` (R21, R35, R143). -/
abbrev DecodeInv (s : State) : Prop :=
  (s.phase = .idle ∨ s.phase = .decHdr → HeaderClear s ∧ s.ipos = 0) ∧
    (AfterHeader s → HeaderLegal s) ∧
    (s.phase = .error → HeaderClear s ∨ HeaderLegal s) ∧
    (s.phase = .decBody → s.pxcnt.toNat < s.pxtotal.toNat) ∧
    (AfterHeader s ∧ s.phase ≠ .decBody → s.pxcnt = s.pxtotal)

/-- How far FB has come (R184). -/
abbrev FilterInv (s : State) : Prop :=
  (BeforeFilter s → s.frow = 0 ∧ s.fb = []) ∧
    (s.phase = .filter →
      s.frow.toNat < s.hdrHeight.toNat ∧ s.fb.length = s.frow.toNat * rowLen s) ∧
    (s.phase = .deflate ∨ s.phase = .frame ∨ s.phase = .done → s.fb.length = payloadLen s) ∧
    (s.phase = .error → s.fb = [])

/-- How far ZS has come: nothing, or the zlib header and `blk` blocks, or all of it (R213, R201). -/
abbrev DeflateInv (s : State) : Prop :=
  (BeforeFilter s ∨ s.phase = .filter ∨ s.phase = .error → s.zs = []) ∧
    (s.phase = .deflate →
      s.blk.toNat ≤ blockCount Config.hw s.fb.length ∧
        (s.zs = [] ∧ s.blk = 0 ∨
          s.zs.length = 2 + 5 * s.blk.toNat + min s.fb.length (s.blk.toNat * Config.hw.blockMax))) ∧
    (s.phase = .frame ∨ s.phase = .done → s.zs.length = zlibLen Config.hw s.fb.length)

/-- How far OUT has come: empty before FRAME and after an exception (R77, R302), then item by item (R232). -/
abbrev FrameInv (s : State) : Prop :=
  (s.phase ≠ .frame ∧ s.phase ≠ .done → s.out = []) ∧
    (s.phase = .frame →
      s.out.length = 0 ∨ s.out.length = 8 ∨
        ∃ j, j ≤ pieceCount Config.hw s.zs.length ∧
          s.out.length = 33 + 12 * j + min s.zs.length (j * Config.hw.idatMax)) ∧
    (s.phase = .done → s.out.length = pngLen Config.hw s.zs.length)

/-- The invariant of every state the machine reaches. -/
abbrev Inv (s : State) : Prop :=
  StorageInv s ∧ CounterInv s ∧ UnitInv s ∧ LatchInv s ∧ DecodeInv s ∧ FilterInv s ∧
    DeflateInv s ∧ FrameInv s

/-- The presence conditions of a chunk of `n` bytes, and a pixel still owed (R124, R126, R127). -/
abbrev ChunkReady (n : Nat) (s : State) : Prop :=
  s.ipos.toNat + n ≤ s.ilen.toNat ∧ s.pxcnt.toNat < s.pxtotal.toNat

/-- `t` has `k` pixels p more than `s` in PB, at the next addresses, and every other address of PB reads as before (R63, R127). -/
abbrev WritesPixels (k : Nat) (p : Pixel) (s t : State) : Prop :=
  t.pxcnt.toNat = s.pxcnt.toNat + k ∧
    ∀ a, pbRead t a =
      if s.pxcnt.toNat ≤ a ∧ a < s.pxcnt.toNat + k then some p else pbRead s a

/-- The slot of p's hash holds p, and every other slot reads as before (R128, R129). -/
abbrev PutsInCache (p : Pixel) (s t : State) : Prop :=
  ∀ i : Fin 64, cacheRead t i =
    if i.val = (p.r.toNat * 3 + p.g.toNat * 5 + p.b.toNat * 7 + p.a.toNat * 11) % 64 then p
    else cacheRead s i

/-- All that a literal, DIFF or LUMA chunk of `n` bytes that makes the pixel p does (R127, R129, R24); nothing else changes. -/
abbrev PutsPixel (n : Nat) (p : Pixel) (s t : State) : Prop :=
  t = { s with pb := t.pb, pxcnt := t.pxcnt, cache := t.cache, prev := p, ipos := t.ipos } ∧
    WritesPixels 1 p s t ∧ PutsInCache p s t ∧ t.ipos.toNat = s.ipos.toNat + n

/-- No move that acts stands at the head of the host's queue: a step is one operation of the block, or the end of a wait (log 1). -/
abbrev HostLooksOn (s : State) : Prop :=
  s.host = [] ∨ ∃ moves, s.host = .poll :: moves ∨ s.host = .waitEnd :: moves

/-- A step from `s` to `t` that may empty FB, ZS and OUT: a raise, a reset, SRESET, or a START that is accepted (R300, R321, R322). -/
abbrev MayEmpty (s t : State) : Prop :=
  (s.phase ≠ .error ∧ t.phase = .error) ∨
    ∃ m moves, s.host = m :: moves ∧
      (m = .resetInput ∨
        ∃ v : Word64, m = .write .ctrl v ∧ (v.getLsbD 1 = true ∨ v.getLsbD 0 = true ∧ busy s = false))

/-- A chunk of `n` bytes whose lead byte is there but whose last byte is not (R126). -/
abbrev ChunkCut (n : Nat) (s : State) : Prop :=
  s.ipos.toNat < s.ilen.toNat ∧ s.ilen.toNat < s.ipos.toNat + n

/-- An RGB, RGBA, DIFF or LUMA chunk: the writers of the cache (R26). -/
abbrev WritesCache (i : Instr) : Prop :=
  (∃ r g b, i = .rgb r g b) ∨ (∃ r g b a, i = .rgba r g b a) ∨
    (∃ dr dg db, i = .diff dr dg db) ∨ (∃ dg x y, i = .luma dg x y)

/-- The bytes of one stored block of a payload (R206, R208, R209). -/
def storedBlockBytes (final : Bool) (piece : List Byte) : List Byte :=
  (if final then 0x01 else 0x00) ::
    (le16 (BitVec.ofNat 16 piece.length) ++ le16 (BitVec.ofNat 16 (65535 - piece.length)) ++ piece)

/-- ZS for a payload (R201). -/
def zlibBytes (cfg : Params) (fb : List Byte) : List Byte :=
  [0x78, 0x01] ++
    ((List.range (blockCount cfg fb.length)).flatMap fun i =>
      storedBlockBytes (decide (i + 1 = blockCount cfg fb.length)) (blockPiece cfg fb i)) ++
    be32 (adler32 fb)

/-- OUT for header values and a zlib stream (R232). -/
def pngBytes (cfg : Params) (w h : Word32) (color : Byte) (zs : List Byte) : List Byte :=
  pngSignatureBytes ++ chunkBytes typeIhdr (ihdrPayload w h color) ++
    ((List.range (pieceCount cfg zs.length)).flatMap fun j =>
      chunkBytes typeIdat (idatPiece cfg zs j)) ++
    chunkBytes typeIend []

/-- The raw bytes of row y, pixel by pixel from PB (R182). -/
def rowFromPixels (s : State) (y : Nat) : List Byte :=
  (List.range s.hdrWidth.toNat).flatMap fun x =>
    match pbRead s (y * s.hdrWidth.toNat + x) with
    | some p => pixelBytes s.hdrChannels p
    | none => []

/-- FB for PB and the header registers: every row behind filter type 0 (R183, R184). -/
def payloadBytes (s : State) : List Byte :=
  (List.range s.hdrHeight.toNat).flatMap fun y => 0 :: rowFromPixels s y

/-- Every pixel of row y holds a value (R27). -/
abbrev RowPresent (s : State) (y : Nat) : Prop :=
  ∀ x, x < s.hdrWidth.toNat → (pbRead s (y * s.hdrWidth.toNat + x)).isSome = true

/-- The color type byte of a legal channel count (R237). -/
def colorByte (channels : Byte) : Byte := if channels = 3 then 2 else 6

/-- `k` steps of the machine. -/
abbrev runSteps (k : Nat) (s : State) : Result := Host.Core.run Sys2Proof.core k s

/-- The most steps an operation takes after its header (R267). -/
def stepsAfterHeader (s : State) : Nat :=
  s.pxtotal.toNat + 1 + s.hdrHeight.toNat + (blockCount Config.hw (payloadLen s) + 2) +
    (pieceCount Config.hw (zlibLen Config.hw (payloadLen s)) + 3)

/-- `pred_t(a, b, c)` as R186 and R187 write it, exact numbers throughout; types above 4 do not occur. Written apart from the filter's own `predictor`. -/
def pngPredictor (t : Nat) (a b c : Byte) : Nat :=
  let p : Int := (a.toNat : Int) + b.toNat - c.toNat
  let pa := (p - a.toNat).natAbs
  let pb := (p - b.toNat).natAbs
  let pc := (p - c.toNat).natAbs
  match t with
  | 0 => 0
  | 1 => a.toNat
  | 2 => b.toNat
  | 3 => (a.toNat + b.toNat) / 2
  | _ => if pa ≤ pb ∧ pa ≤ pc then a.toNat else if pb ≤ pc then b.toNat else c.toNat

/-- `f_t(i) = (x_i - pred_t(i)) mod 256` with the neighbours of R185; `above` is empty for row 0. -/
def pngFiltered (t bpp : Nat) (raw above : List Byte) (i : Nat) : Nat :=
  let a := if bpp ≤ i then raw.getD (i - bpp) 0 else 0
  let c := if bpp ≤ i then above.getD (i - bpp) 0 else 0
  ((raw.getD i 0).toNat + 256 - pngPredictor t a (above.getD i 0) c) % 256

/-- What a PNG reader does with one filtered byte: add the predictor back modulo 256 (R190). -/
def unfilteredByte (t bpp : Nat) (f : Byte) (done above : List Byte) : Byte :=
  let i := done.length
  let a := if bpp ≤ i then done.getD (i - bpp) 0 else 0
  let c := if bpp ≤ i then above.getD (i - bpp) 0 else 0
  BitVec.ofNat 8 (f.toNat + pngPredictor t a (above.getD i 0) c)

/-- A PNG reader's row: each byte is recovered from the filtered byte, the bytes already recovered, and the row above (R190). -/
def unfilterRow (t bpp : Nat) (above : List Byte) : List Byte → List Byte → List Byte
  | done, [] => done
  | done, f :: fs => unfilterRow t bpp above (done ++ [unfilteredByte t bpp f done above]) fs

/-- The bits of a byte, bit 0 first (R68). -/
def bitsOfByte (b : Byte) : List Bool := (List.range 8).map b.getLsbD

/-- The bit stream DP has written: whole bytes of ZS, then the filled bits of `bitbuf` (R203). -/
def bitStream (s : State) : List Bool :=
  s.zs.flatMap bitsOfByte ++ (List.range s.bitcnt.toNat).map s.bitbuf.getLsbD

end Sys2Proof.Machine
end

