-- ==== Sys2Proof/Certificates/Slice0/Obligations.lean ====
section
/-! DEFINITION. The statements for the provers. `ChunkReady`, `PutsPixel`, `Inv` and the byte sequences they use are defined in Sys2Proof/Safety.lean. -/
section
open Sys2Proof Sys2Proof.Machine

/- Encodings (30_encoding.md, 10_state.md R36). -/

/-- R105, R98, R99, R36: what an encoded instruction decodes to, whatever bytes follow it. -/
def Obligations.EncodedInstructionsDecodeBack : Prop :=
  ∀ (i : Instr) (sp : CodeSpace) (rest : List Byte), WellFormed i → codeSpace i = some sp →
    decode sp (encode i ++ rest) = .ok (i, rest)

/-- R105: every chunk has exactly one spelling; the header and the marker too. -/
def Obligations.DecodedBytesEncodeBack : Prop :=
  ∀ (sp : CodeSpace) (bytes rest : List Byte) (i : Instr), sp ≠ .ctrl →
    decode sp bytes = .ok (i, rest) →
    codeSpace i = some sp ∧ encode i ++ rest = bytes ∧ (sp = .chunk → WellFormed i)

/-- R101, R100: the kind, the operands in the lead byte, and how many bytes are consumed, by the range of the lead byte. -/
def Obligations.LeadByteSelectsChunk : Prop :=
  ∀ (b1 : Byte) (t : List Byte), 4 ≤ t.length →
    (b1.toNat ≤ 0x3F → ∃ k : Fin 64, k.val = b1.toNat ∧ decode .chunk (b1 :: t) = .ok (.index k, t)) ∧
    (0x40 ≤ b1.toNat ∧ b1.toNat ≤ 0x7F →
      decode .chunk (b1 :: t) =
        .ok (.diff ((b1.extractLsb' 4 2).toNat - 2) ((b1.extractLsb' 2 2).toNat - 2)
          ((b1.extractLsb' 0 2).toNat - 2), t)) ∧
    (0x80 ≤ b1.toNat ∧ b1.toNat ≤ 0xBF →
      ∃ b2, t = b2 :: t.drop 1 ∧
        decode .chunk (b1 :: t) =
          .ok (.luma ((b1.extractLsb' 0 6).toNat - 32) ((b2.extractLsb' 4 4).toNat - 8)
            ((b2.extractLsb' 0 4).toNat - 8), t.drop 1)) ∧
    (0xC0 ≤ b1.toNat ∧ b1.toNat ≤ 0xFD →
      decode .chunk (b1 :: t) = .ok (.run (b1.toNat - 0xBF), t)) ∧
    (b1.toNat = 0xFE →
      ∃ r g b, t = r :: g :: b :: t.drop 3 ∧
        decode .chunk (b1 :: t) = .ok (.rgb r g b, t.drop 3)) ∧
    (b1.toNat = 0xFF →
      ∃ r g b a, t = r :: g :: b :: a :: t.drop 4 ∧
        decode .chunk (b1 :: t) = .ok (.rgba r g b a, t.drop 4))

/-- R104, R126: the length of a chunk comes from its lead byte alone; a chunk decodes exactly when all its bytes are there. -/
def Obligations.ChunkLengthFromLeadByte : Prop :=
  ∀ (b1 : Byte) (t : List Byte) (n : Nat),
    n = (if b1 = 0xFE then 4 else if b1 = 0xFF then 5 else if b1.extractLsb' 6 2 = 2 then 2 else 1) →
    (t.length + 1 < n → decode .chunk (b1 :: t) = .error (.truncatedChunk n (t.length + 1))) ∧
    (n ≤ t.length + 1 →
      ∃ i, decode .chunk (b1 :: t) = .ok (i, t.drop (n - 1)) ∧ (encode i).length = n)

/-- Words written out from R92 to R99, R36 (95_test_vectors.md T4, T11, T13, T15, D1). -/
def Obligations.WrittenWordsDecode : Prop :=
  decode .chunk [0xFE, 9, 8, 7] = .ok (.rgb 9 8 7, []) ∧
    decode .chunk [0xFF, 9, 8, 7, 6] = .ok (.rgba 9 8 7 6, []) ∧
    decode .chunk [0x3F] = .ok (.index 63, []) ∧
    decode .chunk [0x4E] = .ok (.diff (-2) 1 0, []) ∧
    decode .chunk [0xA5, 0x3C] = .ok (.luma 5 (-5) 4, []) ∧
    decode .chunk [0xFD] = .ok (.run 62, []) ∧
    decode .header [0x71, 0x6F, 0x69, 0x66, 0, 0, 0, 2, 0, 0, 0, 1, 3, 0] =
      .ok (.header 0x716F6966 2 1 3 0, []) ∧
    decode .endMarker [0, 0, 0, 0, 0, 0, 0, 1] = .ok (.endMarker 1, []) ∧
    decode .ctrl [1] = .ok (.start, []) ∧
    decode .ctrl [2] = .ok (.sreset, [])

/- The step. -/

/-- A step runs the decoded instruction, then moves the phase (R121, R124, R262); a command is run by the host's write (R36). The model's choices: the host's moves stand in a queue
and a step makes one of them alone, or lets the block run under a poll or a wait (log 1, DESIGN CHOICE); windows of 14, 5 and 8 bytes are given to the decoder (log 17, DEDUCED). -/
def Obligations.StepRunsTheDecodedInstruction : Prop :=
  ∀ (s : State) (i : Instr) (rest : List Byte),
    (s.host = [] → s.phase = .decHdr → decode .header (inWindow s 0 14) = .ok (i, rest) →
      step s = andThen (exec i s) fun t => .next (advance i t)) ∧
    (s.host = [] → s.phase = .decBody → s.pxcnt.toNat < s.pxtotal.toNat →
      decode .chunk (inWindow s s.ipos.toNat 5) = .ok (i, rest) →
      step s = andThen (exec i s) fun t => .next (advance i t)) ∧
    (s.host = [] → s.phase = .decEnd →
      decode .endMarker (inWindow s s.ipos.toNat 8) = .ok (i, rest) →
      step s = andThen (exec i s) fun t => .next (advance i t)) ∧
    (∀ v moves, s.host = .write .ctrl v :: moves → decodeCtrlValue v = some i →
      step s = exec i { s with host := moves }) ∧
    (s.host = [] → step s = operate s) ∧
    (∀ moves, s.host = .poll :: moves → step s = operate { s with host := moves }) ∧
    (∀ moves, s.host = .waitEnd :: moves →
      step s = if busy s then operate s else .next { s with host := moves })

/-- R184, R213, R232: which operation each encode-side phase runs. -/
def Obligations.EncodePhasesRunTheirOperations : Prop :=
  ∀ s : State, s.host = [] →
    (s.phase = .filter →
      step s = andThen (exec .filtRow s) fun t => .next (advance .filtRow t)) ∧
    (s.phase = .deflate → s.zs = [] →
      step s = andThen (exec .zlibHeader s) fun t => .next (advance .zlibHeader t)) ∧
    (s.phase = .deflate → s.zs ≠ [] → s.blk.toNat < blockCount Config.hw s.fb.length →
      step s = andThen (exec .deflateStored s) fun t => .next (advance .deflateStored t)) ∧
    (s.phase = .deflate → s.zs ≠ [] → blockCount Config.hw s.fb.length ≤ s.blk.toNat →
      step s = andThen (exec .zlibTrailer s) fun t => .next (advance .zlibTrailer t)) ∧
    (s.phase = .frame → s.opos = 0 →
      step s = andThen (exec .pngSignature s) fun t => .next (advance .pngSignature t)) ∧
    (s.phase = .frame → s.opos = 8 →
      step s = andThen (exec .pngIhdr s) fun t => .next (advance .pngIhdr t)) ∧
    (∀ j, s.phase = .frame → j < pieceCount Config.hw s.zs.length →
      s.opos.toNat = 33 + j * (12 + Config.hw.idatMax) →
      step s = andThen (exec (.pngIdat j) s) fun t => .next (advance (.pngIdat j) t)) ∧
    (s.phase = .frame →
      s.opos.toNat = 33 + 12 * pieceCount Config.hw s.zs.length + s.zs.length →
      step s = andThen (exec .pngIend s) fun t => .next (advance .pngIend t))

/-- R261, R313: every phase change is a row of the table, with its event: HEADER latched its fields, a chunk ended, the marker was there, the last row, the trailer, IEND was emitted. IDLE,
DONE and ERROR change nothing until a move of the host acts (moves: log 1). -/
def Obligations.PhaseChangesFollowTheTable : Prop :=
  ∀ s t : State, Inv s → step s = .next t →
    (HostLooksOn s →
      (s.phase = .idle ∨ s.phase = .done ∨ s.phase = .error → t = { s with host := t.host }) ∧
      (s.phase = .decHdr →
        t.phase = .decBody ∧ t.ipos = 14 ∧ HeaderLegal t ∧
            decode .header (inWindow s 0 14) =
              .ok (.header 0x716F6966 t.hdrWidth t.hdrHeight t.hdrChannels t.hdrColorspace, []) ∨
          t.phase = .error ∧ t.ipos = 0 ∧ HeaderClear t) ∧
      (s.phase = .decBody →
        t.phase = .decBody ∧ s.pxcnt.toNat < t.pxcnt.toNat ∧ t.pxcnt.toNat < t.pxtotal.toNat ∨
          t.phase = .decEnd ∧ s.pxcnt.toNat < t.pxcnt.toNat ∧ t.pxcnt = t.pxtotal ∨
          t.phase = .error ∧ t.pxcnt = s.pxcnt) ∧
      (s.phase = .decEnd →
        t.phase = .filter ∧ t.ipos.toNat = s.ipos.toNat + 8 ∧
            decode .endMarker (inWindow s s.ipos.toNat 8) = .ok (.endMarker 1, []) ∨
          t.phase = .error ∧ t.ipos = s.ipos) ∧
      (s.phase = .filter →
        t.frow.toNat = s.frow.toNat + 1 ∧
          (t.phase = .filter ∧ t.frow.toNat < t.hdrHeight.toNat ∨
            t.phase = .deflate ∧ t.frow = t.hdrHeight)) ∧
      (s.phase = .deflate →
        t.phase = .deflate ∧ t.zs.length < zlibLen Config.hw s.fb.length ∨
          t.phase = .frame ∧ t.zs.length = zlibLen Config.hw s.fb.length ∧
            t.zs = s.zs ++ be32 (adler32 s.fb)) ∧
      (s.phase = .frame →
        t.phase = .frame ∧ t.out.length < pngLen Config.hw s.zs.length ∨
          t.phase = .done ∧ t.out.length = pngLen Config.hw s.zs.length ∧
            t.out = s.out ++ [0, 0, 0, 0, 0x49, 0x45, 0x4E, 0x44, 0xAE, 0x42, 0x60, 0x82])) ∧
    (∀ v moves, s.host = .write .ctrl v :: moves →
      t.phase =
        if v.getLsbD 1 then .idle
        else if v.getLsbD 0 ∧ busy s = false then .decHdr else s.phase) ∧
    (∀ moves, s.host = .resetInput :: moves → t.phase = .idle) ∧
    (∀ r v moves, s.host = .write r v :: moves → r ≠ .ctrl → t.phase = s.phase) ∧
    (∀ a bytes moves, s.host = .placeIn a bytes :: moves → t.phase = s.phase)

/-- R122, R124, R126, R144: an item whose bytes are not all there raises, before any effect. -/
def Obligations.MissingInputRaises : Prop :=
  ∀ s : State, s.host = [] →
    (s.phase = .decHdr → s.ilen.toNat < 14 →
      step s = .next (raise .truncatedHeader s.ilen 14 s.ilen s)) ∧
    (s.phase = .decBody → s.pxcnt.toNat < s.pxtotal.toNat → s.ilen.toNat ≤ s.ipos.toNat →
      step s = .next (raise .truncatedChunk s.ipos 1 0 s)) ∧
    (∀ n, s.phase = .decBody → s.pxcnt.toNat < s.pxtotal.toNat →
      n = chunkLen (inByte s s.ipos.toNat) → ChunkCut n s →
      step s =
        .next (raise .truncatedChunk s.ipos (BitVec.ofNat 64 n) (s.ilen - s.ipos) s)) ∧
    (s.phase = .decEnd → s.ilen.toNat < s.ipos.toNat + 8 →
      step s =
        .next (raise .badEndMarker s.ipos 1
          (BitVec.ofNat 64
            (beNat ((List.range (s.ilen.toNat - s.ipos.toNat)).map fun k =>
              inByte s (s.ipos.toNat + k)))) s))

/- The chunks (40_qoi_decoder.md). -/

/-- R130: RGB, with R126's check. -/
def Obligations.RgbMakesAPixel : Prop :=
  ∀ (r g b : Byte) (s : State),
    (ChunkReady 4 s →
      ∃ t, exec (.rgb r g b) s = .next t ∧ PutsPixel 4 ⟨r, g, b, s.prev.a⟩ s t) ∧
    (ChunkCut 4 s →
      exec (.rgb r g b) s = .next (raise .truncatedChunk s.ipos 4 (s.ilen - s.ipos) s))

/-- R131: RGBA, with R126's check; `hdr_channels` does not enter. -/
def Obligations.RgbaMakesAPixel : Prop :=
  ∀ (r g b a : Byte) (s : State),
    (ChunkReady 5 s →
      ∃ t, exec (.rgba r g b a) s = .next t ∧ PutsPixel 5 ⟨r, g, b, a⟩ s t) ∧
    (ChunkCut 5 s →
      exec (.rgba r g b a) s = .next (raise .truncatedChunk s.ipos 5 (s.ilen - s.ipos) s))

/-- R132: INDEX replays a slot; CACHE is unchanged. -/
def Obligations.IndexReplaysASlot : Prop :=
  ∀ (k : Fin 64) (s : State), ChunkReady 1 s →
    ∃ t, exec (.index k) s = .next t ∧
      t = { s with pb := t.pb, pxcnt := t.pxcnt, prev := cacheRead s k, ipos := t.ipos } ∧
      WritesPixels 1 (cacheRead s k) s t ∧ t.ipos.toNat = s.ipos.toNat + 1

/-- R134: DIFF; each channel modulo 256 on its own, alpha unchanged. -/
def Obligations.DiffMakesAPixel : Prop :=
  ∀ (dr dg db : Int) (s : State), WellFormed (.diff dr dg db) → ChunkReady 1 s →
    ∃ t, exec (.diff dr dg db) s = .next t ∧ PutsPixel 1 t.prev s t ∧
      (t.prev.r.toNat : Int) = (s.prev.r.toNat + dr) % 256 ∧
      (t.prev.g.toNat : Int) = (s.prev.g.toNat + dg) % 256 ∧
      (t.prev.b.toNat : Int) = (s.prev.b.toNat + db) % 256 ∧
      t.prev.a = s.prev.a

/-- R136: LUMA, with R126's check. -/
def Obligations.LumaMakesAPixel : Prop :=
  ∀ (dg drdg dbdg : Int) (s : State), WellFormed (.luma dg drdg dbdg) →
    (ChunkReady 2 s →
      ∃ t, exec (.luma dg drdg dbdg) s = .next t ∧ PutsPixel 2 t.prev s t ∧
        (t.prev.r.toNat : Int) = (s.prev.r.toNat + (dg + drdg)) % 256 ∧
        (t.prev.g.toNat : Int) = (s.prev.g.toNat + dg) % 256 ∧
        (t.prev.b.toNat : Int) = (s.prev.b.toNat + (dg + dbdg)) % 256 ∧
        t.prev.a = s.prev.a) ∧
    (ChunkCut 2 s →
      exec (.luma dg drdg dbdg) s = .next (raise .truncatedChunk s.ipos 2 (s.ilen - s.ipos) s))

/-- R138, R139: RUN writes its pixels, or raises before any of them; CACHE and `prev` are unchanged. -/
def Obligations.RunRepeatsThePreviousPixel : Prop :=
  ∀ (count : Nat) (s : State), WellFormed (.run count) → ChunkReady 1 s →
    (count ≤ s.pxtotal.toNat - s.pxcnt.toNat →
      ∃ t, exec (.run count) s = .next t ∧
        t = { s with pb := t.pb, pxcnt := t.pxcnt, ipos := t.ipos } ∧
        WritesPixels count s.prev s t ∧ t.ipos.toNat = s.ipos.toNat + 1) ∧
    (s.pxtotal.toNat - s.pxcnt.toNat < count →
      exec (.run count) s =
        .next (raise .runOverflow s.ipos (BitVec.ofNat 64 (s.pxtotal.toNat - s.pxcnt.toNat))
          (BitVec.ofNat 64 count) s))

/-- R129, R26: of all instructions that answer a next state, only START and SRESET (which clear it) and the four chunk kinds that made a pixel write CACHE, and those four one slot, with the pixel they wrote to PB. -/
def Obligations.OnlyFourChunkKindsWriteTheCache : Prop :=
  ∀ (i : Instr) (s t : State), exec i s = .next t → i ≠ .start → i ≠ .sreset →
    (¬ WritesCache i → t.cache = s.cache) ∧
    (WritesCache i → t.pxcnt = s.pxcnt → t.cache = s.cache) ∧
    (WritesCache i → t.pxcnt ≠ s.pxcnt →
      pbRead t s.pxcnt.toNat = some t.prev ∧ PutsInCache t.prev s t)

/-- R76: INDEX of a pixel's slot directly after the chunk that made the pixel produces it a second time. -/
def Obligations.CacheWriteIsSeenByTheNextIndex : Prop :=
  ∀ (i : Instr) (s t : State), WritesCache i → exec i s = .next t → t.pxcnt ≠ s.pxcnt →
    ChunkReady 1 t →
    ∃ u, exec (.index (hash t.prev)) t = .next u ∧ u.prev = t.prev ∧
      pbRead u s.pxcnt.toNat = some t.prev ∧ pbRead u t.pxcnt.toNat = some t.prev

/- The framing items. -/

/-- R122, R141: a good header is latched, and nothing else changes. -/
def Obligations.HeaderLatchesItsFields : Prop :=
  ∀ (w h : Word32) (c cs : Byte) (s : State), 14 ≤ s.ilen.toNat →
    0 < w.toNat → 0 < h.toNat → c = 3 ∨ c = 4 → cs = 0 ∨ cs = 1 →
    w.toNat * h.toNat * c.toNat < 2 ^ 32 →
    ∃ t, exec (.header 0x716F6966 w h c cs) s = .next t ∧ t.pxtotal.toNat = w.toNat * h.toNat ∧
      t = { s with
            hdrWidth := w, hdrHeight := h, hdrChannels := c, hdrColorspace := cs,
            pxtotal := t.pxtotal, ipos := 14 }

/-- R122, R141, R284: the first failing check of HEADER raises, in the order written, for any parameters. -/
def Obligations.HeaderRaisesItsFirstFailure : Prop :=
  ∀ (cfg : Params) (m w h : Word32) (c cs : Byte) (s : State),
    (s.ilen.toNat < 14 →
      headerWith cfg m w h c cs s = raise .truncatedHeader s.ilen 14 s.ilen s) ∧
    (14 ≤ s.ilen.toNat →
      (m ≠ 0x716F6966 →
        headerWith cfg m w h c cs s = raise .badMagic 0 0x716F6966 (m.zeroExtend 64) s) ∧
      (m = 0x716F6966 →
        (w = 0 → headerWith cfg m w h c cs s = raise .zeroWidth 4 1 0 s) ∧
        (w ≠ 0 → h = 0 → headerWith cfg m w h c cs s = raise .zeroHeight 8 1 0 s) ∧
        (w ≠ 0 → h ≠ 0 →
          (c ≠ 3 ∧ c ≠ 4 →
            headerWith cfg m w h c cs s = raise .badChannels 12 3 (c.zeroExtend 64) s) ∧
          (c = 3 ∨ c = 4 →
            (cs ≠ 0 ∧ cs ≠ 1 →
              headerWith cfg m w h c cs s = raise .badColorspace 13 0 (cs.zeroExtend 64) s) ∧
            (cs = 0 ∨ cs = 1 →
              (2 ^ 32 ≤ w.toNat * h.toNat * c.toNat →
                headerWith cfg m w h c cs s =
                  raise .sizeOverflow 4 (BitVec.ofNat 64 (2 ^ 32 - 1))
                    (BitVec.ofNat 64 (min (w.toNat * h.toNat * c.toNat) (2 ^ 64 - 1))) s) ∧
              (w.toNat * h.toNat * c.toNat < 2 ^ 32 → cfg.maxPixels < w.toNat * h.toNat →
                headerWith cfg m w h c cs s =
                  raise .capacity 4 (BitVec.ofNat 64 cfg.maxPixels)
                    (BitVec.ofNat 64 (w.toNat * h.toNat)) s))))))

/-- R66, R98, R122: the step of phase DEC_HDR reads width and height most significant byte first. -/
def Obligations.HeaderStepReadsBigEndian : Prop :=
  ∀ (s : State) (f : Nat → Byte) (w h : Nat), s.host = [] → s.phase = .decHdr →
    14 ≤ s.ilen.toNat → (∀ k, k < 14 → Cells.read s.inp k = some (f k)) →
    f 0 = 0x71 → f 1 = 0x6F → f 2 = 0x69 → f 3 = 0x66 →
    w = (f 4).toNat * 2 ^ 24 + (f 5).toNat * 2 ^ 16 + (f 6).toNat * 2 ^ 8 + (f 7).toNat →
    h = (f 8).toNat * 2 ^ 24 + (f 9).toNat * 2 ^ 16 + (f 10).toNat * 2 ^ 8 + (f 11).toNat →
    0 < w → 0 < h → f 12 = 3 ∨ f 12 = 4 → f 13 = 0 ∨ f 13 = 1 →
    w * h * (f 12).toNat < 2 ^ 32 →
    ∃ t, step s = .next t ∧ t.phase = .decBody ∧ t.ipos = 14 ∧ t.hdrWidth.toNat = w ∧
      t.hdrHeight.toNat = h ∧ t.hdrChannels = f 12 ∧ t.hdrColorspace = f 13 ∧
      t.pxtotal.toNat = w * h

/-- R144, R145: END accepts the marker and nothing else; what it does with the bytes after the marker, for either policy (this hardware ignores them). -/
def Obligations.EndChecksTheMarker : Prop :=
  ∀ (e : Word64) (s t : State), s.ipos.toNat + 8 ≤ s.ilen.toNat →
    t = { s with ipos := s.ipos + 8 } →
    t.ipos.toNat = s.ipos.toNat + 8 ∧
    (e = 1 → exec (.endMarker e) s = .next t) ∧
    (e ≠ 1 → exec (.endMarker e) s = .next (raise .badEndMarker s.ipos 1 e s)) ∧
    ∀ cfg : Params,
      (cfg.trailing = .ignore → endWith cfg 1 s = t) ∧
      (t.ipos = t.ilen → endWith cfg 1 s = t) ∧
      (cfg.trailing = .reject → t.ipos.toNat < t.ilen.toNat →
        endWith cfg 1 s = raise .trailingData t.ipos 0 (t.ilen - t.ipos) t)

/- Commands, registers, reset. -/

/-- R263, R264, R39, R321: START and SRESET. `ckOut` and `freeSeq` are the model's own fields (log 7, log 4) and left open here. -/
def Obligations.CommandsReinitialise : Prop :=
  ∀ s : State,
    (busy s = true → exec .start s = .next s) ∧
    (busy s = false →
      ∃ t, exec .start s = .next t ∧ t.phase = .decHdr ∧ busy t = true ∧
        t = { State.reset with
              host := s.host, inp := s.inp, ilen := s.ilen, phase := .decHdr,
              ckOut := t.ckOut, freeSeq := t.freeSeq }) ∧
    (∃ t, exec .sreset s = .next t ∧
      t = { State.reset with
            host := s.host, inp := s.inp, ckOut := t.ckOut, freeSeq := t.freeSeq })

/-- R39: both columns. A power-on or hardware reset and SRESET leave the first, an accepted START the second. -/
def Obligations.ResetValues : Prop :=
  ∀ s t : State,
    (t = State.reset ∨ exec .sreset s = .next t ∨
        (∃ moves, s.host = .resetInput :: moves ∧ step s = .next t) →
      t.phase = .idle ∧ busy t = false ∧ t.ilen = 0) ∧
    (busy s = false ∧ exec .start s = .next t →
      t.phase = .decHdr ∧ busy t = true ∧ t.ilen = s.ilen) ∧
    (t = State.reset ∨ exec .sreset s = .next t ∨
        (∃ moves, s.host = .resetInput :: moves ∧ step s = .next t) ∨
        busy s = false ∧ exec .start s = .next t →
      doneFlag t = false ∧ errorFlag t = false ∧ t.ipos = 0 ∧ t.hdrWidth = 0 ∧
        t.hdrHeight = 0 ∧ t.hdrChannels = 0 ∧ t.hdrColorspace = 0 ∧ t.pxtotal = 0 ∧
        t.pxcnt = 0 ∧ t.prev = ⟨0, 0, 0, 255⟩ ∧ (∀ i, cacheRead t i = ⟨0, 0, 0, 0⟩) ∧
        (∀ a, pbRead t a = none) ∧ t.crc = 0xFFFFFFFF ∧ t.adlerA = 1 ∧ t.adlerB = 0 ∧
        t.frow = 0 ∧ t.bitbuf = 0 ∧ t.bitcnt = 0 ∧ t.blk = 0 ∧ t.opos = 0 ∧ t.fb = [] ∧
        t.zs = [] ∧ t.out = [] ∧ t.errKind = .none ∧ t.errCause = .none ∧ t.errOffset = 0 ∧
        t.errExpected = 0 ∧ t.errFound = 0)

/-- R36, R35: what a write of a register does. CTRL: bit 1 is SRESET and wins, bit 0 is START, ignored while BUSY. ILEN: ignored while BUSY. The others are read only.
That a step makes the write alone and takes it from a queue is the model's choice (log 1, DESIGN CHOICE). -/
def Obligations.RegisterWrites : Prop :=
  ∀ (s : State) (r : HostReg) (v : Word64) (moves : List HostMove),
    s.host = .write r v :: moves →
    (r = .ctrl →
      (v.getLsbD 1 = true → step s = exec .sreset { s with host := moves }) ∧
      (v.getLsbD 1 = false → v.getLsbD 0 = true →
        step s = if busy s then .next { s with host := moves }
          else exec .start { s with host := moves }) ∧
      (v.getLsbD 1 = false → v.getLsbD 0 = false → step s = .next { s with host := moves })) ∧
    (r = .ilen →
      step s = .next { s with host := moves, ilen := if busy s then s.ilen else v }) ∧
    (r ≠ .ctrl → r ≠ .ilen → step s = .next { s with host := moves })

/-- R33, R35: STATUS, the flags as functions of the phase, and the other registers' reads, with the codes of R32, R280 and R284. -/
def Obligations.RegisterReads : Prop :=
  ∀ s : State,
    (s.phase, (readReg s .status).toNat) ∈
        [(Phase.idle, 0x00), (Phase.decHdr, 0x11), (Phase.decBody, 0x21), (Phase.decEnd, 0x31),
          (Phase.filter, 0x41), (Phase.deflate, 0x51), (Phase.frame, 0x61), (Phase.done, 0x72),
          (Phase.error, 0x84)] ∧
      (readReg s .status).toNat % 8 =
        4 * (errorFlag s).toNat + 2 * (doneFlag s).toNat + (busy s).toNat ∧
      (busy s).toNat + (doneFlag s).toNat + (errorFlag s).toNat ≤ 1 ∧
      (doneFlag s = true ↔ s.phase = .done) ∧ (errorFlag s = true ↔ s.phase = .error) ∧
      (busy s = false ↔ s.phase = .idle ∨ s.phase = .done ∨ s.phase = .error) ∧
      readReg s .ctrl = 0 ∧ readReg s .ilen = s.ilen ∧
      (readReg s .hdrWidth).toNat = s.hdrWidth.toNat ∧
      (readReg s .hdrHeight).toNat = s.hdrHeight.toNat ∧
      (readReg s .hdrChannels).toNat = s.hdrChannels.toNat ∧
      (readReg s .hdrColorspace).toNat = s.hdrColorspace.toNat ∧
      (s.errKind, (readReg s .errKind).toNat) ∈
        [(ErrKind.none, 0), (ErrKind.formatError, 1), (ErrKind.sizeError, 2), (ErrKind.argError, 3)] ∧
      (s.errCause, (readReg s .errCause).toNat) ∈
        [(ErrCause.none, 0), (ErrCause.truncatedHeader, 1), (ErrCause.badMagic, 2),
          (ErrCause.badChannels, 3), (ErrCause.badColorspace, 4), (ErrCause.truncatedChunk, 5),
          (ErrCause.runOverflow, 6), (ErrCause.badEndMarker, 7), (ErrCause.reservedTag, 8),
          (ErrCause.trailingData, 9), (ErrCause.zeroWidth, 16), (ErrCause.zeroHeight, 17),
          (ErrCause.sizeOverflow, 18), (ErrCause.capacity, 19), (ErrCause.encBadChannels, 32),
          (ErrCause.encZeroDim, 33)] ∧
      readReg s .errOffset = s.errOffset ∧ readReg s .errExpected = s.errExpected ∧
      readReg s .errFound = s.errFound ∧ (readReg s .pxcnt).toNat = s.pxcnt.toNat ∧
      readReg s .olen = s.opos

/-- R27: the host reads PB only in DONE, and there every pixel of the image. -/
def Obligations.PixelsReadableOnlyWhenDone : Prop :=
  ∀ (s : State) (a : Nat), Inv s →
    ((readPixel s a).isSome = true ↔ s.phase = .done ∧ a < s.hdrWidth.toNat * s.hdrHeight.toNat)

/-- R270, R60: bytes the host places are read back, every other byte of IN as before. That a move while BUSY is refused (U8) and the order of host moves are the model's choice (log 5, log 1). -/
def Obligations.HostPlacesInput : Prop :=
  ∀ (s : State) (a : Nat) (bytes : List Byte) (moves : List HostMove),
    s.host = .placeIn a bytes :: moves →
    (busy s = true → step s = .refused .inputChangedWhileBusy) ∧
    (busy s = false → a + bytes.length ≤ 2 ^ 64 →
      ∃ t, step s = .next t ∧ t = { s with host := moves, inp := t.inp } ∧
        ∀ x, Cells.read t.inp x =
          if a ≤ x ∧ x < a + bytes.length then bytes[x - a]? else Cells.read s.inp x)

/- Exceptions (60_exceptions.md). -/

/-- R300: what `raise` writes (the kinds of the causes are R284's), that it writes nothing else, and that the block then stops until the host moves. -/
def Obligations.RaiseWritesTheLatches : Prop :=
  ∀ (k : ErrCause) (o : Offset) (e f : Word64) (s t : State), t = raise k o e f s →
    (k ≠ .none →
      (k, t.errKind) ∈
        [(ErrCause.truncatedHeader, ErrKind.formatError), (ErrCause.badMagic, ErrKind.formatError),
          (ErrCause.badChannels, ErrKind.formatError), (ErrCause.badColorspace, ErrKind.formatError),
          (ErrCause.truncatedChunk, ErrKind.formatError), (ErrCause.runOverflow, ErrKind.formatError),
          (ErrCause.badEndMarker, ErrKind.formatError), (ErrCause.reservedTag, ErrKind.formatError),
          (ErrCause.trailingData, ErrKind.formatError), (ErrCause.zeroWidth, ErrKind.sizeError),
          (ErrCause.zeroHeight, ErrKind.sizeError), (ErrCause.sizeOverflow, ErrKind.sizeError),
          (ErrCause.capacity, ErrKind.sizeError), (ErrCause.encBadChannels, ErrKind.argError),
          (ErrCause.encZeroDim, ErrKind.argError)]) ∧
      t.errCause = k ∧ t.errOffset = o ∧ t.errExpected = e ∧
      t.errFound = f ∧ t.phase = .error ∧ busy t = false ∧ doneFlag t = false ∧
      errorFlag t = true ∧ (∀ a, pbRead t a = none ∧ readPixel t a = none) ∧
      t.fb = [] ∧ t.zs = [] ∧ t.out = [] ∧ t.opos = 0 ∧
      s = { t with
            errKind := s.errKind, errCause := s.errCause, errOffset := s.errOffset,
            errExpected := s.errExpected, errFound := s.errFound, phase := s.phase,
            pb := s.pb, fb := s.fb, zs := s.zs, out := s.out, opos := s.opos } ∧
      (t.host = [] → step t = .next t)

/-- R301, R303: the failing item of a step leaves no trace in the decoder's registers, and where the latches point. -/
def Obligations.ExceptionsArePrecise : Prop :=
  ∀ s t : State, Inv s → HostLooksOn s → s.phase ≠ .error → step s = .next t → t.phase = .error →
    t.prev = s.prev ∧ t.cache = s.cache ∧ t.pxcnt = s.pxcnt ∧ t.pxtotal = s.pxtotal ∧
      t.ipos = s.ipos ∧ t.hdrWidth = s.hdrWidth ∧ t.hdrHeight = s.hdrHeight ∧
      t.hdrChannels = s.hdrChannels ∧ t.hdrColorspace = s.hdrColorspace ∧
      (s.phase = .decHdr ∨ s.phase = .decBody ∨ s.phase = .decEnd) ∧
      (s.phase = .decHdr → t.ipos = 0) ∧
      (s.phase ≠ .decHdr → t.errOffset = t.ipos)

/-- R305, R303: only START and reset leave ERROR; until then no operation executes and the latches keep their values. -/
def Obligations.ErrorIsLeftOnlyByStartOrReset : Prop :=
  ∀ s t : State, s.phase = .error → step s = .next t →
    (s.host = [] → t = s) ∧
    (t.phase ≠ .error →
      ∃ m moves, s.host = m :: moves ∧
        (m = .resetInput ∨ ∃ v : Word64, m = .write .ctrl v ∧ (v.getLsbD 0 ∨ v.getLsbD 1))) ∧
    (t.phase = .error →
      t.errKind = s.errKind ∧ t.errCause = s.errCause ∧ t.errOffset = s.errOffset ∧
        t.errExpected = s.errExpected ∧ t.errFound = s.errFound)

/-- R64, R77, R31: FB, ZS and OUT only grow, each in its own phase, or are emptied by an accepted START, a reset or a raise. -/
def Obligations.SequencesOnlyGrow : Prop :=
  ∀ s t : State, step s = .next t →
    (t.fb = s.fb ∨ t.fb = [] ∧ MayEmpty s t ∨ s.phase = .filter ∧ s.fb <+: t.fb) ∧
    (t.zs = s.zs ∨ t.zs = [] ∧ MayEmpty s t ∨ s.phase = .deflate ∧ s.zs <+: t.zs) ∧
    (t.out = s.out ∨ t.out = [] ∧ MayEmpty s t ∨ s.phase = .frame ∧ s.out <+: t.out)

/-- R21, R23, R61, R79: no instruction writes IN, none but SRESET writes ILEN, and none but HEADER (and START and SRESET, which clear them) writes the header registers and `pxtotal`. -/
def Obligations.InputAndHeaderRegistersAreReadOnly : Prop :=
  ∀ (i : Instr) (s t : State), exec i s = .next t →
    t.inp = s.inp ∧ t.host = s.host ∧ (i ≠ .sreset → t.ilen = s.ilen) ∧
    (i ≠ .start → i ≠ .sreset → (∀ m w h c cs, i ≠ .header m w h c cs) →
      t.hdrWidth = s.hdrWidth ∧ t.hdrHeight = s.hdrHeight ∧ t.hdrChannels = s.hdrChannels ∧
        t.hdrColorspace = s.hdrColorspace ∧ t.pxtotal = s.pxtotal)

/-- R24: an item that completes advances `ipos` by the bytes it consumed and stays within ILEN; an item that raises and an operation that reads nothing of IN leave it. -/
def Obligations.PcAdvancesByTheItemLength : Prop :=
  ∀ (i : Instr) (s t : State), WellFormed i → exec i s = .next t → i ≠ .start → i ≠ .sreset →
    ((∃ m w h c cs, i = .header m w h c cs) → s.ipos = 0) →
    t.ipos = s.ipos ∧ (codeSpace i = none ∨ ∃ k o e f, t = raise k o e f s) ∨
      codeSpace i ≠ none ∧ t.ipos.toNat = s.ipos.toNat + (encode i).length ∧
        t.ipos.toNat ≤ t.ilen.toNat

/- Checksums (41_checksums.md). -/

/-- R161, R162, R163: the CRC operations. `ckOut` is the model's port for a result (log 7). -/
def Obligations.CrcOperations : Prop :=
  ∀ (v : Byte) (s : State),
    exec .crcInit s = .next { s with crc := 0xFFFFFFFF } ∧
    exec (.crcUpdate v) s =
      .next
        { s with
          crc :=
            (fun c : Word32 => if c.getLsbD 0 then (c >>> 1) ^^^ 0xEDB88320 else c >>> 1)^[8]
              (s.crc ^^^ v.zeroExtend 32) } ∧
    exec .crcFinal s = .next { s with ckOut := s.crc ^^^ 0xFFFFFFFF }

/-- R166, R167, R168: the Adler-32 operations. `ckOut` is the model's port for a result (log 7). -/
def Obligations.AdlerOperations : Prop :=
  ∀ (v : Byte) (s : State),
    exec .adlerInit s = .next { s with adlerA := 1, adlerB := 0 } ∧
    (∃ t, exec (.adlerUpdate v) s = .next t ∧
      t = { s with adlerA := t.adlerA, adlerB := t.adlerB } ∧
      t.adlerA.toNat = (s.adlerA.toNat + v.toNat) % 65521 ∧
      t.adlerB.toNat = (s.adlerB.toNat + t.adlerA.toNat) % 65521) ∧
    (∃ t, exec .adlerFinal s = .next t ∧ t = { s with ckOut := t.ckOut } ∧
      t.ckOut.toNat = s.adlerB.toNat * 65536 + s.adlerA.toNat)

/-- R170: the values a model must reproduce. -/
def Obligations.ChecksumCheckValues : Prop :=
  crc32 [0x31, 0x32, 0x33, 0x34, 0x35, 0x36, 0x37, 0x38, 0x39] = 0xCBF43926 ∧
    adler32 [0x31, 0x32, 0x33, 0x34, 0x35, 0x36, 0x37, 0x38, 0x39] = 0x091E01DE ∧
    crc32 [] = 0 ∧ adler32 [] = 1 ∧
    crc32 [0x61] = 0xE8B7BE43 ∧ adler32 [0x61] = 0x00620062 ∧
    crc32 [0x00] = 0xD202EF8D ∧ adler32 [0x00] = 0x00010001 ∧
    crc32 [0xFF] = 0xFF000000 ∧ adler32 [0xFF] = 0x01000100 ∧
    crc32 [0x57, 0x69, 0x6B, 0x69, 0x70, 0x65, 0x64, 0x69, 0x61] = 0xADAAC02E ∧
    adler32 [0x57, 0x69, 0x6B, 0x69, 0x70, 0x65, 0x64, 0x69, 0x61] = 0x11E60398 ∧
    crc32 [0x49, 0x45, 0x4E, 0x44] = 0xAE426082 ∧ adler32 [0x49, 0x45, 0x4E, 0x44] = 0x02D70121

/-- R164: the table form of CRC.UPDATE gives the same register value for every byte and every register value. -/
def Obligations.CrcTableForm : Prop :=
  ∀ (T : Byte → Word32), (∀ n : Byte, T n = crcShifts 8 (n.zeroExtend 32)) →
    ∀ (c : Word32) (v : Byte), crcStep c v = T ((c ^^^ v.zeroExtend 32).truncate 8) ^^^ (c >>> 8)

/-- R169: the modulo may be deferred; over at most 5552 bytes the accumulators stay below 2^32. -/
def Obligations.AdlerModuloMayBeDeferred : Prop :=
  ∀ (a b : BitVec 16) (bytes : List Byte) (AB : Nat × Nat),
    AB = bytes.foldl (fun ab v => (ab.1 + v.toNat, ab.2 + (ab.1 + v.toNat))) (a.toNat, b.toNat) →
    a.toNat < 65521 → b.toNat < 65521 →
    (adlerSteps (a, b) bytes).1.toNat = AB.1 % 65521 ∧
      (adlerSteps (a, b) bytes).2.toNat = AB.2 % 65521 ∧
      (bytes.length ≤ 5552 → AB.1 < 2 ^ 32 ∧ AB.2 < 2 ^ 32)

/- The scanline filter (42_scanline_filter.md). -/

/-- R183, R182: FILT.ROW of this hardware. -/
def Obligations.FiltRowEmitsTheRawRow : Prop :=
  ∀ s : State, s.hdrChannels = 3 ∨ s.hdrChannels = 4 → 0 < s.hdrWidth.toNat →
    s.frow.toNat < s.hdrHeight.toNat → RowPresent s s.frow.toNat →
    exec .filtRow s =
      .next { s with fb := s.fb ++ 0 :: rowFromPixels s s.frow.toNat, frow := s.frow + 1 }

/-- R181: the argument check, before the first row. -/
def Obligations.FilterChecksItsArguments : Prop :=
  ∀ s : State, s.frow = 0 →
    (s.hdrChannels ≠ 3 ∧ s.hdrChannels ≠ 4 →
      exec .filtRow s = .next (raise .encBadChannels 0 3 (s.hdrChannels.zeroExtend 64) s)) ∧
    (s.hdrChannels = 3 ∨ s.hdrChannels = 4 → s.hdrWidth = 0 ∨ s.hdrHeight = 0 →
      exec .filtRow s = .next (raise .encZeroDim 0 1 0 s))

/-- R188: the selected type has the least score, and is the smallest such type; the scores are of the bytes that R185 to R187 define (`pngFiltered`). -/
def Obligations.AdaptiveTypeHasTheLeastScore : Prop :=
  ∀ (bpp : Nat) (raw above : List Byte) (t : Nat) (sc : Nat → Nat),
    t = selectType bpp raw above →
    (∀ u, sc u = ((List.range raw.length).map fun i =>
      if pngFiltered u bpp raw above i < 128 then pngFiltered u bpp raw above i
      else 256 - pngFiltered u bpp raw above i).sum) →
    t ≤ 4 ∧ ∀ u, u ≤ 4 → sc t ≤ sc u ∧ (u < t → sc t < sc u)

/-- R189: FILT.ROW with FILTER_MODE = ADAPTIVE (not this hardware's value); the filtered bytes are those that R185 to R187 define (`pngFiltered`). -/
def Obligations.AdaptiveRowIsFiltered : Prop :=
  ∀ (s : State) (raw above : List Byte) (t : Nat),
    s.hdrChannels = 3 ∨ s.hdrChannels = 4 → 0 < s.hdrWidth.toNat →
    s.frow.toNat < s.hdrHeight.toNat → RowPresent s s.frow.toNat →
    (0 < s.frow.toNat → RowPresent s (s.frow.toNat - 1)) →
    raw = rowFromPixels s s.frow.toNat →
    above = (if s.frow.toNat = 0 then [] else rowFromPixels s (s.frow.toNat - 1)) →
    t = selectType s.hdrChannels.toNat raw above →
    filtRowWith { Config.hw with filterMode := .adaptive } s =
      .next
        { s with
          fb := s.fb ++ BitVec.ofNat 8 t ::
            (List.range raw.length).map fun i =>
              BitVec.ofNat 8 (pngFiltered t s.hdrChannels.toNat raw above i),
          frow := s.frow + 1 }

/-- R190: a reader that adds back the predictors R185 to R187 define (`unfilterRow`, `pngPredictor`) gets the raw row, whatever the type. -/
def Obligations.FiltersAreReversible : Prop :=
  ∀ (t bpp : Nat) (raw above : List Byte), 0 < bpp →
    unfilterRow t bpp above [] (filteredRow t bpp raw above) = raw

/- The deflate packer (43_deflate_packer.md). -/

/-- R202, R212: the two ends of the zlib stream. The trailer leaves its value on the model's result port (log 7), and that it leaves
`adler_a` and `adler_b` alone is the model's deduction (log 12, DEDUCED). -/
def Obligations.ZlibHeaderAndTrailer : Prop :=
  ∀ s : State,
    exec .zlibHeader s = .next { s with zs := s.zs ++ [0x78, 0x01] } ∧
    ∃ t, exec .zlibTrailer s = .next t ∧
      t = { s with zs := s.zs ++ be32 (adler32 s.fb), ckOut := t.ckOut }

/-- R203: BITS.PUT appends the k low bits of v, least significant first, to the bit stream. -/
def Obligations.BitsPutAppendsBits : Prop :=
  ∀ (v : BitVec 16) (k : Nat) (s : State), 1 ≤ k → k ≤ 16 →
    (∀ j, s.bitcnt.toNat ≤ j → s.bitbuf.getLsbD j = false) →
    ∃ t, exec (.bitsPut v k) s = .next t ∧
      t = { s with zs := t.zs, bitbuf := t.bitbuf, bitcnt := t.bitcnt } ∧
      s.zs <+: t.zs ∧ bitStream t = bitStream s ++ (List.range k).map v.getLsbD ∧
      (∀ j, t.bitcnt.toNat ≤ j → t.bitbuf.getLsbD j = false)

/-- R204: BITS.ALIGN. -/
def Obligations.BitsAlignPadsTheByte : Prop :=
  ∀ s : State,
    (s.bitcnt = 0 → exec .bitsAlign s = .next s) ∧
    (0 < s.bitcnt.toNat →
      exec .bitsAlign s = .next { s with zs := s.zs ++ [s.bitbuf], bitbuf := 0, bitcnt := 0 })

/-- R206 to R210, R213: DEFLATE.STORED. -/
def Obligations.StoredBlockBytes : Prop :=
  ∀ (s : State) (n : Nat) (piece : List Byte), s.bitbuf = 0 → s.bitcnt = 0 →
    n = max 1 ((s.fb.length + Config.hw.blockMax - 1) / Config.hw.blockMax) → s.blk.toNat < n →
    piece = (s.fb.drop (s.blk.toNat * Config.hw.blockMax)).take Config.hw.blockMax →
    exec .deflateStored s =
      .next
        { s with
          zs := s.zs ++ ((if s.blk.toNat + 1 = n then 0x01 else 0x00) ::
            (le16 (BitVec.ofNat 16 piece.length) ++
              le16 (BitVec.ofNat 16 (65535 - piece.length)) ++ piece)),
          blk := s.blk + 1,
          adlerA := (adlerSteps (s.adlerA, s.adlerB) piece).1,
          adlerB := (adlerSteps (s.adlerA, s.adlerB) piece).2 }

/- The framer (44_png_framer.md). -/

/-- R231, R243: the signature and IEND. The CRC register and the model's result port (log 7) after IEND are not said here. -/
def Obligations.SignatureAndIend : Prop :=
  ∀ s : State,
    exec .pngSignature s =
      .next
        { s with
          out := s.out ++ [0x89, 0x50, 0x4E, 0x47, 0x0D, 0x0A, 0x1A, 0x0A], opos := s.opos + 8 } ∧
    ∃ t, exec .pngIend s = .next t ∧
      t = { s with
            out := s.out ++ [0, 0, 0, 0, 0x49, 0x45, 0x4E, 0x44, 0xAE, 0x42, 0x60, 0x82],
            opos := s.opos + 12, crc := t.crc, ckOut := t.ckOut }

/-- R233, R339: PNG.CHUNK; `crc` holds the remainder over type and data, from a fresh start. -/
def Obligations.PngChunkFramesItsData : Prop :=
  ∀ (type : Word32) (data : List Byte) (s : State), data.length ≤ 2 ^ 31 - 1 →
    ∃ t, exec (.pngChunk type data) s = .next t ∧
      t = { s with
            out := s.out ++ (be32 (BitVec.ofNat 32 data.length) ++ be32 type ++ data ++
              be32 (crc32 (be32 type ++ data))),
            opos := s.opos + BitVec.ofNat 64 (12 + data.length), crc := t.crc,
            ckOut := t.ckOut } ∧
      t.crc = (be32 type ++ data).foldl crcStep 0xFFFFFFFF

/-- R235, R236, R237: PNG.IHDR. -/
def Obligations.IhdrDescribesTheImage : Prop :=
  ∀ (s : State) (color : Byte),
    s.hdrChannels = 3 ∧ color = 2 ∨ s.hdrChannels = 4 ∧ color = 6 →
    ∃ t, exec .pngIhdr s = .next t ∧
      t = { s with
            out := s.out ++ ([0, 0, 0, 13, 0x49, 0x48, 0x44, 0x52] ++
              (be32 s.hdrWidth ++ be32 s.hdrHeight ++ [8, color, 0, 0, 0]) ++
              be32 (crc32 ([0x49, 0x48, 0x44, 0x52] ++
                (be32 s.hdrWidth ++ be32 s.hdrHeight ++ [8, color, 0, 0, 0])))),
            opos := s.opos + 25, crc := t.crc, ckOut := t.ckOut }

/-- R241, R240: PNG.IDAT. -/
def Obligations.IdatFramesItsPiece : Prop :=
  ∀ (s : State) (j : Nat) (piece : List Byte), j < pieceCount Config.hw s.zs.length →
    piece = (s.zs.drop (j * Config.hw.idatMax)).take Config.hw.idatMax →
    ∃ t, exec (.pngIdat j) s = .next t ∧
      t = { s with
            out := s.out ++ (be32 (BitVec.ofNat 32 piece.length) ++ [0x49, 0x44, 0x41, 0x54] ++
              piece ++ be32 (crc32 ([0x49, 0x44, 0x41, 0x54] ++ piece))),
            opos := s.opos + BitVec.ofNat 64 (12 + piece.length), crc := t.crc,
            ckOut := t.ckOut }

/-- R210, R240: the stored blocks' payloads together are FB and the IDAT pieces together are ZS; every block but the last is full, and no piece is empty. -/
def Obligations.SplitsLoseNothing : Prop :=
  ∀ (cfg : Params) (fb zs : List Byte), cfg.Legal →
    (List.range (blockCount cfg fb.length)).flatMap (blockPiece cfg fb) = fb ∧
    (∀ i, i < blockCount cfg fb.length →
      (i + 1 < blockCount cfg fb.length → (blockPiece cfg fb i).length = cfg.blockMax) ∧
      (i + 1 = blockCount cfg fb.length → 0 < fb.length →
        1 ≤ (blockPiece cfg fb i).length ∧ (blockPiece cfg fb i).length ≤ cfg.blockMax)) ∧
    (List.range (pieceCount cfg zs.length)).flatMap (idatPiece cfg zs) = zs ∧
    (∀ j, j < pieceCount cfg zs.length →
      1 ≤ (idatPiece cfg zs j).length ∧ (idatPiece cfg zs j).length ≤ cfg.idatMax)

/- The machine as a whole. -/

/-- The invariant at reset (R39). -/
def Obligations.ResetMeetsTheInvariant : Prop := Inv State.reset

/-- R21, R23, R24, R28, R31, R73, R302: from every state that meets the invariant, a step gives one that meets it. -/
def Obligations.StepKeepsTheInvariant : Prop :=
  ∀ s t : State, Inv s → step s = .next t → Inv t

/-- R61, R102, R267: no operation stops the machine. -/
def Obligations.NoOperationStops : Prop :=
  ∀ s : State, Inv s → HostLooksOn s → ∃ t, step s = .next t

/-- R267: every operation reaches DONE or ERROR, and once its header is accepted within the steps R267 counts; a host that waits on the outputs (R270; log 1) finds it there, its later moves still to come. -/
def Obligations.EveryOperationEnds : Prop :=
  ∀ s : State, Inv s → s.host = [] → busy s = true →
    (∃ k t, runSteps k s = .next t ∧ (t.phase = .done ∨ t.phase = .error)) ∧
    (AfterHeader s →
      ∃ k t, k ≤ stepsAfterHeader s ∧ runSteps k s = .next t ∧
        (t.phase = .done ∨ t.phase = .error)) ∧
    (∀ moves, ∃ k t, runSteps k { s with host := .waitEnd :: moves } = .next t ∧ t.host = moves ∧
      (t.phase = .done ∨ t.phase = .error))

/-- R17, R70: what a run without host moves does depends on IN only through the bytes below ILEN; and an operation is not changed by the moves the host has still to make (log 1). -/
def Obligations.OnlyTheInputBytesMatter : Prop :=
  (∀ (k : Nat) (s s' t : State), s.host = [] →
    s' = { s with inp := s'.inp, freeSeq := s'.freeSeq } →
    (∀ a, a < s.ilen.toNat → ∃ b, Cells.read s.inp a = some b ∧ Cells.read s'.inp a = some b) →
    runSteps k s = .next t →
    runSteps k s' = .next { t with inp := s'.inp, freeSeq := s'.freeSeq }) ∧
  (∀ (s t : State) (moves : List HostMove), s.host = [] → step s = .next t →
    step { s with host := .poll :: moves } = .next { t with host := moves })

/-- R184, R183, R267: phase FILTER, in h steps. That the step which enters DEFLATE already does the first line of R213 is the model's deduction (log 11, DEDUCED). -/
def Obligations.FilterPhaseWritesThePayload : Prop :=
  ∀ s : State, Inv s → s.host = [] → s.phase = .filter → s.frow = 0 →
    runSteps s.hdrHeight.toNat s =
      .next
        { s with
          phase := .deflate, fb := payloadBytes s, frow := s.hdrHeight, bitbuf := 0, bitcnt := 0,
          blk := 0, adlerA := 1, adlerB := 0 }

/-- R213, R201: phase DEFLATE, in n + 2 steps; the running Adler-32 agrees with the trailer. -/
def Obligations.DeflatePhaseWritesTheStream : Prop :=
  ∀ s : State, Inv s → s.host = [] → s.phase = .deflate → s.zs = [] → s.adlerA = 1 →
    s.adlerB = 0 →
    ∃ t, runSteps (blockCount Config.hw s.fb.length + 2) s = .next t ∧
      t = { s with
            phase := .frame, zs := zlibBytes Config.hw s.fb, blk := t.blk, adlerA := t.adlerA,
            adlerB := t.adlerB, ckOut := t.ckOut } ∧
      t.blk.toNat = blockCount Config.hw s.fb.length ∧
      adlerValue (t.adlerA, t.adlerB) = adler32 s.fb

/-- R232, R73: phase FRAME, in m + 3 steps. -/
def Obligations.FramePhaseWritesTheFile : Prop :=
  ∀ s : State, Inv s → s.host = [] → s.phase = .frame → s.out = [] →
    ∃ t, runSteps (pieceCount Config.hw s.zs.length + 3) s = .next t ∧
      t = { s with
            phase := .done,
            out := pngBytes Config.hw s.hdrWidth s.hdrHeight (colorByte s.hdrChannels) s.zs,
            opos := t.opos, crc := t.crc, ckOut := t.ckOut } ∧
      t.opos.toNat = pngLen Config.hw s.zs.length

end
end

