-- ==== Sys2Proof/Laws/Host.lean ====
section
/-! SUPPORT. No instruction reads or writes the host's moves still to come: `exec` commutes with replacing them. -/
namespace Sys2Proof.Machine

/-- `s` with other moves still to come. -/
def setHost (h : List HostMove) (s : State) : State := { s with host := h }

/-- A result whose next state has other moves still to come. -/
def mapHost (h : List HostMove) (x : Result) : Result := andThen x fun t => .next (setHost h t)

@[simp] theorem mapHost_next (h : List HostMove) (s : State) :
    mapHost h (.next s) = .next (setHost h s) := rfl

section
variable (h : List HostMove) (s : State)

theorem andThen_mapHost (x : Result) {f g : State → Result}
    (hf : ∀ s, g (setHost h s) = mapHost h (f s)) :
    andThen (mapHost h x) g = mapHost h (andThen x f) := by
  cases x with
  | next s => exact hf s
  | fault r => rfl
  | refused r => rfl

theorem produce_setHost (p : Pixel) : produce p (setHost h s) = mapHost h (produce p s) := by
  rw [produce.eq_1 p s, apply_ite (mapHost h)]
  rfl

theorem produceMany_setHost (p : Pixel) (n : Nat) (s : State) :
    produceMany p n (setHost h s) = mapHost h (produceMany p n s) := by
  induction n generalizing s with
  | zero => rfl
  | succ n ih =>
    rw [produceMany, produceMany, produce_setHost]
    exact andThen_mapHost h _ ih

theorem withChunk_setHost (n : Nat) {f g : State → Result}
    (hf : g (setHost h s) = mapHost h (f s)) :
    withChunk n (setHost h s) g = mapHost h (withChunk n s f) := by
  rw [withChunk.eq_1 n s, apply_ite (mapHost h), apply_ite (mapHost h), ← hf]
  rfl

theorem putPixel_setHost (n : Nat) (p : Pixel) :
    putPixel n p (setHost h s) = mapHost h (putPixel n p s) := by
  rw [putPixel, putPixel, produce_setHost]
  exact andThen_mapHost h _ fun _ => rfl

theorem putBit_setHost (b : Bool) : putBit b (setHost h s) = setHost h (putBit b s) := by
  rw [putBit.eq_1 b s, apply_ite (setHost h)]
  rfl

theorem bitsPut_setHost (v : BitVec 16) (k : Nat) :
    bitsPut v k (setHost h s) = setHost h (bitsPut v k s) := by
  unfold bitsPut
  generalize (List.range k).map v.getLsbD = l
  induction l generalizing s with
  | nil => rfl
  | cons b t ih =>
    simp only [List.foldl_cons, putBit_setHost]
    exact ih _

theorem bitsAlign_setHost : bitsAlign (setHost h s) = setHost h (bitsAlign s) := by
  rw [bitsAlign.eq_1 s, apply_ite (setHost h)]
  rfl

theorem pbReadMany_setHost (a n : Nat) : pbReadMany (setHost h s) a n = pbReadMany s a n := by
  induction n generalizing a with
  | zero => rfl
  | succ n ih =>
    simp only [pbReadMany, ih]
    rfl

theorem rawRow_setHost (y : Nat) : rawRow (setHost h s) y = rawRow s y := by
  unfold rawRow
  rw [pbReadMany_setHost]
  rfl

theorem encodeCheck_setHost : encodeCheck (setHost h s) = (encodeCheck s).map (setHost h) := by
  rw [encodeCheck.eq_1 s, apply_ite (Option.map (setHost h)), apply_ite (Option.map (setHost h))]
  rfl

theorem emitRow_setHost (cfg : Params) : emitRow cfg (setHost h s) = mapHost h (emitRow cfg s) := by
  have above : ∀ y, rowAbove cfg.filterMode (setHost h s) y = rowAbove cfg.filterMode s y :=
    fun y => by simp only [rowAbove, rawRow_setHost]
  unfold emitRow
  rw [show (setHost h s).frow = s.frow from rfl,
    show (setHost h s).hdrHeight = s.hdrHeight from rfl, rawRow_setHost, above]
  split_ifs
  · rfl
  · split <;> rfl

theorem frameChunk_setHost (ty : Word32) (d : List Byte) :
    frameChunk ty d (setHost h s) = mapHost h (frameChunk ty d s) := by
  unfold frameChunk
  split_ifs <;> rfl

/-- No instruction depends on the moves still to come, and none changes them. -/
theorem exec_setHost (i : Instr) : exec i (setHost h s) = mapHost h (exec i s) := by
  cases i <;> simp only [exec]
  case rgb => exact withChunk_setHost h s 4 (putPixel_setHost ..)
  case rgba => exact withChunk_setHost h s 5 (putPixel_setHost ..)
  case diff => exact withChunk_setHost h s 1 (putPixel_setHost ..)
  case luma => exact withChunk_setHost h s 2 (putPixel_setHost ..)
  case index =>
    refine withChunk_setHost h s 1 ?_
    rw [produce_setHost]
    exact andThen_mapHost h _ fun _ => rfl
  case run =>
    refine withChunk_setHost h s 1 ?_
    rw [show (setHost h s).pxtotal = s.pxtotal from rfl, show (setHost h s).pxcnt = s.pxcnt from rfl]
    split_ifs
    · rfl
    · rw [produceMany_setHost]
      exact andThen_mapHost h _ fun _ => rfl
  case header =>
    simp only [execHeader, mapHost_next, headerWith, latchHeader, apply_ite (setHost h)]
    rfl
  case endMarker =>
    simp only [execEndMarker, mapHost_next, endWith, trailingCheck, apply_ite (setHost h)]
    rfl
  case start =>
    unfold execStart
    rw [show busy (setHost h s) = busy s from rfl]
    split_ifs <;> rfl
  case filtRow =>
    unfold execFiltRow filtRowWith
    rw [show (setHost h s).frow = s.frow from rfl, encodeCheck_setHost, emitRow_setHost]
    split_ifs
    · cases encodeCheck s <;> rfl
    · rfl
  case bitsPut =>
    unfold execBitsPut
    rw [bitsPut_setHost]
    rfl
  case bitsAlign =>
    unfold execBitsAlign
    rw [bitsAlign_setHost]
    rfl
  case deflateStored =>
    unfold execDeflateStored deflateStoredWith
    rw [show (setHost h s).blk = s.blk from rfl, show (setHost h s).fb = s.fb from rfl]
    split_ifs
    · rfl
    · simp only [storedBlock, bitsPut_setHost, bitsAlign_setHost]
      rfl
  case pngChunk => exact frameChunk_setHost ..
  case pngIhdr =>
    unfold execPngIhdr
    rw [show (setHost h s).hdrChannels = s.hdrChannels from rfl]
    cases colorType s.hdrChannels with
    | none => rfl
    | some color => exact frameChunk_setHost ..
  case pngIdat =>
    unfold execPngIdat idatWith
    rw [show (setHost h s).zs = s.zs from rfl]
    split_ifs
    · rfl
    · exact frameChunk_setHost ..
  case pngIend => exact frameChunk_setHost ..
  all_goals rfl

end

end Sys2Proof.Machine
end

