-- ==== Sys2Proof/Laws/Memory.lean ====
section
/-! SUPPORT. Sparse storage: a read after a write, and the canonical form kept by every operation. -/
namespace Sys2Proof.Machine

variable {α : Type}

@[simp] theorem Cells.read_nil (a : Nat) : Cells.read ([] : Cells α) a = none := rfl

@[simp] theorem Cells.read_cons (k : Nat) (v : α) (m : Cells α) (a : Nat) :
    Cells.read ((k, v) :: m) a = if k = a then some v else Cells.read m a := rfl

/-- Reading where the write went gives the value; every other address reads as before. -/
theorem Cells.read_write (m : Cells α) (a b : Nat) (v : α) :
    Cells.read (Cells.write m a v) b = if b = a then some v else Cells.read m b := by
  induction m with
  | nil => simp [Cells.write, eq_comm]
  | cons kw t ih =>
    obtain ⟨k, w⟩ := kw
    unfold Cells.write
    by_cases h1 : a < k
    · rw [if_pos h1]
      by_cases hb : b = a
      · simp [hb]
      · simp [hb, Ne.symm hb]
    · rw [if_neg h1]
      by_cases h2 : k = a
      · subst h2
        by_cases hb : b = k
        · simp [hb]
        · simp [hb, Ne.symm hb]
      · rw [if_neg h2, Cells.read_cons, Cells.read_cons, ih]
        by_cases hb : b = a
        · subst hb
          simp [h2]
        · simp [hb]

theorem Cells.write_fst_mem (m : Cells α) (a : Nat) (v : α) (x : Nat)
    (h : x ∈ (Cells.write m a v).map Prod.fst) : x = a ∨ x ∈ m.map Prod.fst := by
  induction m with
  | nil => simpa [Cells.write] using h
  | cons kw t ih =>
    obtain ⟨k, w⟩ := kw
    unfold Cells.write at h
    split_ifs at h with h1 h2
    · simpa using h
    · subst h2
      simp only [List.map_cons, List.mem_cons] at h ⊢
      tauto
    · simp only [List.map_cons, List.mem_cons] at h ⊢
      rcases h with h | h
      · exact .inr (.inl h)
      · rcases ih h with h | h
        · exact .inl h
        · exact .inr (.inr h)

theorem Cells.write_wf (m : Cells α) (a : Nat) (v : α) (h : Cells.wf m) :
    Cells.wf (Cells.write m a v) := by
  induction m with
  | nil => simp [Cells.write, Cells.wf]
  | cons kw t ih =>
    obtain ⟨k, w⟩ := kw
    simp only [Cells.wf, List.map_cons, List.pairwise_cons] at h
    unfold Cells.write
    split_ifs with h1 h2
    · simp only [Cells.wf, List.map_cons, List.pairwise_cons, List.mem_cons]
      refine ⟨?_, h⟩
      rintro x (rfl | hx)
      · exact h1
      · exact lt_trans h1 (h.1 x hx)
    · subst h2
      simpa only [Cells.wf, List.map_cons, List.pairwise_cons] using h
    · simp only [Cells.wf, List.map_cons, List.pairwise_cons]
      refine ⟨fun x hx => ?_, ih h.2⟩
      rcases Cells.write_fst_mem t a v x hx with rfl | hx
      · omega
      · exact h.1 x hx

theorem Cells.writeMany_wf (m : Cells α) (a : Nat) (vs : List α) (h : Cells.wf m) :
    Cells.wf (Cells.writeMany m a vs) := by
  induction vs generalizing m a with
  | nil => exact h
  | cons v t ih => exact ih _ _ (Cells.write_wf m a v h)

/-- After writing consecutive elements, an address among them reads its element and every other address reads as before. -/
theorem Cells.read_writeMany (m : Cells α) (a b : Nat) (vs : List α) :
    Cells.read (Cells.writeMany m a vs) b =
      if a ≤ b ∧ b < a + vs.length then vs[b - a]? else Cells.read m b := by
  induction vs generalizing m a with
  | nil => simp [Cells.writeMany]
  | cons v t ih =>
    simp only [Cells.writeMany, ih, Cells.read_write, List.length_cons]
    by_cases h : b = a
    · subst h; simp
    · by_cases h' : a ≤ b ∧ b < a + (t.length + 1)
      · rw [if_pos h', if_pos (by omega)]
        obtain ⟨k, hk⟩ : ∃ k, b - a = k + 1 := ⟨b - a - 1, by omega⟩
        rw [hk, List.getElem?_cons_succ, show b - (a + 1) = k by omega]
      · rw [if_neg h', if_neg (by omega), if_neg h]

/-- A write just past the last element appends it: PB grows in order (R27). -/
theorem Cells.write_map_fst_range (m : Cells α) (n : Nat) (v : α)
    (h : m.map Prod.fst = List.range n) :
    (Cells.write m n v).map Prod.fst = List.range (n + 1) := by
  have key : ∀ (m : Cells α), (∀ x ∈ m.map Prod.fst, x < n) →
      (Cells.write m n v).map Prod.fst = m.map Prod.fst ++ [n] := by
    intro m
    induction m with
    | nil => intro _; rfl
    | cons kw t ih =>
      obtain ⟨k, w⟩ := kw
      intro hlt
      simp only [List.map_cons, List.mem_cons, forall_eq_or_imp] at hlt
      unfold Cells.write
      rw [if_neg (by omega), if_neg (by omega)]
      simp [ih hlt.2]
  rw [key m (by rw [h]; simp), h, List.range_succ]

/-- An address among the listed ones holds a value. -/
theorem Cells.read_isSome (m : Cells α) (a : Nat) (h : a ∈ m.map Prod.fst) :
    ∃ v, Cells.read m a = some v := by
  induction m with
  | nil => simp at h
  | cons kw t ih =>
    obtain ⟨k, w⟩ := kw
    by_cases hk : k = a
    · exact ⟨w, by simp [hk]⟩
    · simp only [List.map_cons, List.mem_cons] at h
      obtain ⟨v, hv⟩ := ih (h.resolve_left (fun e => hk e.symm))
      exact ⟨v, by simp [hk, hv]⟩

theorem reset_inp_wf : Memory.wf State.reset.inp := by decide

theorem reset_pb_wf : Cells.wf State.reset.pb := by decide

/-- The host's way to change IN keeps the canonical form. -/
theorem placeIn_wf {offset : Nat} {bytes : List Byte} {s t : State}
    (h : placeIn offset bytes s = .next t) (hw : Memory.wf s.inp) : Memory.wf t.inp := by
  unfold placeIn at h
  split_ifs at h
  cases h
  exact Cells.writeMany_wf _ _ _ hw

end Sys2Proof.Machine
end

