-- ==== Sys2Proof/Laws/State.lean ====
section
/-! SUPPORT. One lemma per field for each named update of the state, so that no proof unfolds a record update. -/
namespace Sys2Proof.Machine

section
variable (s : State)

@[simp] theorem resetEffect_host : (resetEffect s).host = s.host := rfl
@[simp] theorem resetEffect_inp : (resetEffect s).inp = s.inp := rfl
@[simp] theorem resetEffect_ilen : (resetEffect s).ilen = 0 := rfl
@[simp] theorem resetEffect_ipos : (resetEffect s).ipos = 0 := rfl
@[simp] theorem resetEffect_hdrWidth : (resetEffect s).hdrWidth = 0 := rfl
@[simp] theorem resetEffect_hdrHeight : (resetEffect s).hdrHeight = 0 := rfl
@[simp] theorem resetEffect_hdrChannels : (resetEffect s).hdrChannels = 0 := rfl
@[simp] theorem resetEffect_hdrColorspace : (resetEffect s).hdrColorspace = 0 := rfl
@[simp] theorem resetEffect_prev : (resetEffect s).prev = ⟨0, 0, 0, 255⟩ := rfl
@[simp] theorem resetEffect_pxcnt : (resetEffect s).pxcnt = 0 := rfl
@[simp] theorem resetEffect_pxtotal : (resetEffect s).pxtotal = 0 := rfl
@[simp] theorem resetEffect_cache : (resetEffect s).cache = Vector.replicate 64 ⟨0, 0, 0, 0⟩ := rfl
@[simp] theorem resetEffect_pb : (resetEffect s).pb = [] := rfl
@[simp] theorem resetEffect_crc : (resetEffect s).crc = 0xFFFFFFFF := rfl
@[simp] theorem resetEffect_adlerA : (resetEffect s).adlerA = 1 := rfl
@[simp] theorem resetEffect_adlerB : (resetEffect s).adlerB = 0 := rfl
@[simp] theorem resetEffect_frow : (resetEffect s).frow = 0 := rfl
@[simp] theorem resetEffect_bitbuf : (resetEffect s).bitbuf = 0 := rfl
@[simp] theorem resetEffect_bitcnt : (resetEffect s).bitcnt = 0 := rfl
@[simp] theorem resetEffect_blk : (resetEffect s).blk = 0 := rfl
@[simp] theorem resetEffect_opos : (resetEffect s).opos = 0 := rfl
@[simp] theorem resetEffect_phase : (resetEffect s).phase = .idle := rfl
@[simp] theorem resetEffect_errKind : (resetEffect s).errKind = .none := rfl
@[simp] theorem resetEffect_errCause : (resetEffect s).errCause = .none := rfl
@[simp] theorem resetEffect_errOffset : (resetEffect s).errOffset = 0 := rfl
@[simp] theorem resetEffect_errExpected : (resetEffect s).errExpected = 0 := rfl
@[simp] theorem resetEffect_errFound : (resetEffect s).errFound = 0 := rfl
@[simp] theorem resetEffect_fb : (resetEffect s).fb = [] := rfl
@[simp] theorem resetEffect_zs : (resetEffect s).zs = [] := rfl
@[simp] theorem resetEffect_out : (resetEffect s).out = [] := rfl
@[simp] theorem resetEffect_ckOut : (resetEffect s).ckOut = 0 := rfl
@[simp] theorem resetEffect_freeSeq : (resetEffect s).freeSeq = s.freeSeq := rfl

end

section
variable (s : State)

@[simp] theorem startEffect_host : (startEffect s).host = s.host := rfl
@[simp] theorem startEffect_inp : (startEffect s).inp = s.inp := rfl
@[simp] theorem startEffect_ilen : (startEffect s).ilen = s.ilen := rfl
@[simp] theorem startEffect_ipos : (startEffect s).ipos = 0 := rfl
@[simp] theorem startEffect_hdrWidth : (startEffect s).hdrWidth = 0 := rfl
@[simp] theorem startEffect_hdrHeight : (startEffect s).hdrHeight = 0 := rfl
@[simp] theorem startEffect_hdrChannels : (startEffect s).hdrChannels = 0 := rfl
@[simp] theorem startEffect_hdrColorspace : (startEffect s).hdrColorspace = 0 := rfl
@[simp] theorem startEffect_prev : (startEffect s).prev = ⟨0, 0, 0, 255⟩ := rfl
@[simp] theorem startEffect_pxcnt : (startEffect s).pxcnt = 0 := rfl
@[simp] theorem startEffect_pxtotal : (startEffect s).pxtotal = 0 := rfl
@[simp] theorem startEffect_cache : (startEffect s).cache = Vector.replicate 64 ⟨0, 0, 0, 0⟩ := rfl
@[simp] theorem startEffect_pb : (startEffect s).pb = [] := rfl
@[simp] theorem startEffect_crc : (startEffect s).crc = 0xFFFFFFFF := rfl
@[simp] theorem startEffect_adlerA : (startEffect s).adlerA = 1 := rfl
@[simp] theorem startEffect_adlerB : (startEffect s).adlerB = 0 := rfl
@[simp] theorem startEffect_frow : (startEffect s).frow = 0 := rfl
@[simp] theorem startEffect_bitbuf : (startEffect s).bitbuf = 0 := rfl
@[simp] theorem startEffect_bitcnt : (startEffect s).bitcnt = 0 := rfl
@[simp] theorem startEffect_blk : (startEffect s).blk = 0 := rfl
@[simp] theorem startEffect_opos : (startEffect s).opos = 0 := rfl
@[simp] theorem startEffect_phase : (startEffect s).phase = .decHdr := rfl
@[simp] theorem startEffect_errKind : (startEffect s).errKind = .none := rfl
@[simp] theorem startEffect_errCause : (startEffect s).errCause = .none := rfl
@[simp] theorem startEffect_errOffset : (startEffect s).errOffset = 0 := rfl
@[simp] theorem startEffect_errExpected : (startEffect s).errExpected = 0 := rfl
@[simp] theorem startEffect_errFound : (startEffect s).errFound = 0 := rfl
@[simp] theorem startEffect_fb : (startEffect s).fb = [] := rfl
@[simp] theorem startEffect_zs : (startEffect s).zs = [] := rfl
@[simp] theorem startEffect_out : (startEffect s).out = [] := rfl
@[simp] theorem startEffect_ckOut : (startEffect s).ckOut = 0 := rfl
@[simp] theorem startEffect_freeSeq : (startEffect s).freeSeq = s.freeSeq + 1 := rfl

end

section
variable (k : ErrCause) (o : Offset) (e f : Word64) (s : State)

@[simp] theorem raise_host : (raise k o e f s).host = s.host := rfl
@[simp] theorem raise_inp : (raise k o e f s).inp = s.inp := rfl
@[simp] theorem raise_ilen : (raise k o e f s).ilen = s.ilen := rfl
@[simp] theorem raise_ipos : (raise k o e f s).ipos = s.ipos := rfl
@[simp] theorem raise_hdrWidth : (raise k o e f s).hdrWidth = s.hdrWidth := rfl
@[simp] theorem raise_hdrHeight : (raise k o e f s).hdrHeight = s.hdrHeight := rfl
@[simp] theorem raise_hdrChannels : (raise k o e f s).hdrChannels = s.hdrChannels := rfl
@[simp] theorem raise_hdrColorspace : (raise k o e f s).hdrColorspace = s.hdrColorspace := rfl
@[simp] theorem raise_prev : (raise k o e f s).prev = s.prev := rfl
@[simp] theorem raise_pxcnt : (raise k o e f s).pxcnt = s.pxcnt := rfl
@[simp] theorem raise_pxtotal : (raise k o e f s).pxtotal = s.pxtotal := rfl
@[simp] theorem raise_cache : (raise k o e f s).cache = s.cache := rfl
@[simp] theorem raise_pb : (raise k o e f s).pb = [] := rfl
@[simp] theorem raise_crc : (raise k o e f s).crc = s.crc := rfl
@[simp] theorem raise_adlerA : (raise k o e f s).adlerA = s.adlerA := rfl
@[simp] theorem raise_adlerB : (raise k o e f s).adlerB = s.adlerB := rfl
@[simp] theorem raise_frow : (raise k o e f s).frow = s.frow := rfl
@[simp] theorem raise_bitbuf : (raise k o e f s).bitbuf = s.bitbuf := rfl
@[simp] theorem raise_bitcnt : (raise k o e f s).bitcnt = s.bitcnt := rfl
@[simp] theorem raise_blk : (raise k o e f s).blk = s.blk := rfl
@[simp] theorem raise_opos : (raise k o e f s).opos = 0 := rfl
@[simp] theorem raise_phase : (raise k o e f s).phase = .error := rfl
@[simp] theorem raise_errKind : (raise k o e f s).errKind = causeKind k := rfl
@[simp] theorem raise_errCause : (raise k o e f s).errCause = k := rfl
@[simp] theorem raise_errOffset : (raise k o e f s).errOffset = o := rfl
@[simp] theorem raise_errExpected : (raise k o e f s).errExpected = e := rfl
@[simp] theorem raise_errFound : (raise k o e f s).errFound = f := rfl
@[simp] theorem raise_fb : (raise k o e f s).fb = [] := rfl
@[simp] theorem raise_zs : (raise k o e f s).zs = [] := rfl
@[simp] theorem raise_out : (raise k o e f s).out = [] := rfl
@[simp] theorem raise_ckOut : (raise k o e f s).ckOut = s.ckOut := rfl
@[simp] theorem raise_freeSeq : (raise k o e f s).freeSeq = s.freeSeq := rfl

end

section
variable (p : Pixel) (s : State)

@[simp] theorem cachePut_host : (cachePut p s).host = s.host := rfl
@[simp] theorem cachePut_inp : (cachePut p s).inp = s.inp := rfl
@[simp] theorem cachePut_ilen : (cachePut p s).ilen = s.ilen := rfl
@[simp] theorem cachePut_ipos : (cachePut p s).ipos = s.ipos := rfl
@[simp] theorem cachePut_hdrWidth : (cachePut p s).hdrWidth = s.hdrWidth := rfl
@[simp] theorem cachePut_hdrHeight : (cachePut p s).hdrHeight = s.hdrHeight := rfl
@[simp] theorem cachePut_hdrChannels : (cachePut p s).hdrChannels = s.hdrChannels := rfl
@[simp] theorem cachePut_hdrColorspace : (cachePut p s).hdrColorspace = s.hdrColorspace := rfl
@[simp] theorem cachePut_prev : (cachePut p s).prev = s.prev := rfl
@[simp] theorem cachePut_pxcnt : (cachePut p s).pxcnt = s.pxcnt := rfl
@[simp] theorem cachePut_pxtotal : (cachePut p s).pxtotal = s.pxtotal := rfl
@[simp] theorem cachePut_cache : (cachePut p s).cache = s.cache.set (hash p).val p (hash p).isLt := rfl
@[simp] theorem cachePut_pb : (cachePut p s).pb = s.pb := rfl
@[simp] theorem cachePut_crc : (cachePut p s).crc = s.crc := rfl
@[simp] theorem cachePut_adlerA : (cachePut p s).adlerA = s.adlerA := rfl
@[simp] theorem cachePut_adlerB : (cachePut p s).adlerB = s.adlerB := rfl
@[simp] theorem cachePut_frow : (cachePut p s).frow = s.frow := rfl
@[simp] theorem cachePut_bitbuf : (cachePut p s).bitbuf = s.bitbuf := rfl
@[simp] theorem cachePut_bitcnt : (cachePut p s).bitcnt = s.bitcnt := rfl
@[simp] theorem cachePut_blk : (cachePut p s).blk = s.blk := rfl
@[simp] theorem cachePut_opos : (cachePut p s).opos = s.opos := rfl
@[simp] theorem cachePut_phase : (cachePut p s).phase = s.phase := rfl
@[simp] theorem cachePut_errKind : (cachePut p s).errKind = s.errKind := rfl
@[simp] theorem cachePut_errCause : (cachePut p s).errCause = s.errCause := rfl
@[simp] theorem cachePut_errOffset : (cachePut p s).errOffset = s.errOffset := rfl
@[simp] theorem cachePut_errExpected : (cachePut p s).errExpected = s.errExpected := rfl
@[simp] theorem cachePut_errFound : (cachePut p s).errFound = s.errFound := rfl
@[simp] theorem cachePut_fb : (cachePut p s).fb = s.fb := rfl
@[simp] theorem cachePut_zs : (cachePut p s).zs = s.zs := rfl
@[simp] theorem cachePut_out : (cachePut p s).out = s.out := rfl
@[simp] theorem cachePut_ckOut : (cachePut p s).ckOut = s.ckOut := rfl
@[simp] theorem cachePut_freeSeq : (cachePut p s).freeSeq = s.freeSeq := rfl

end

section
variable (p : Pixel) (s : State)

@[simp] theorem setPrev_host : (setPrev p s).host = s.host := rfl
@[simp] theorem setPrev_inp : (setPrev p s).inp = s.inp := rfl
@[simp] theorem setPrev_ilen : (setPrev p s).ilen = s.ilen := rfl
@[simp] theorem setPrev_ipos : (setPrev p s).ipos = s.ipos := rfl
@[simp] theorem setPrev_hdrWidth : (setPrev p s).hdrWidth = s.hdrWidth := rfl
@[simp] theorem setPrev_hdrHeight : (setPrev p s).hdrHeight = s.hdrHeight := rfl
@[simp] theorem setPrev_hdrChannels : (setPrev p s).hdrChannels = s.hdrChannels := rfl
@[simp] theorem setPrev_hdrColorspace : (setPrev p s).hdrColorspace = s.hdrColorspace := rfl
@[simp] theorem setPrev_prev : (setPrev p s).prev = p := rfl
@[simp] theorem setPrev_pxcnt : (setPrev p s).pxcnt = s.pxcnt := rfl
@[simp] theorem setPrev_pxtotal : (setPrev p s).pxtotal = s.pxtotal := rfl
@[simp] theorem setPrev_cache : (setPrev p s).cache = s.cache := rfl
@[simp] theorem setPrev_pb : (setPrev p s).pb = s.pb := rfl
@[simp] theorem setPrev_crc : (setPrev p s).crc = s.crc := rfl
@[simp] theorem setPrev_adlerA : (setPrev p s).adlerA = s.adlerA := rfl
@[simp] theorem setPrev_adlerB : (setPrev p s).adlerB = s.adlerB := rfl
@[simp] theorem setPrev_frow : (setPrev p s).frow = s.frow := rfl
@[simp] theorem setPrev_bitbuf : (setPrev p s).bitbuf = s.bitbuf := rfl
@[simp] theorem setPrev_bitcnt : (setPrev p s).bitcnt = s.bitcnt := rfl
@[simp] theorem setPrev_blk : (setPrev p s).blk = s.blk := rfl
@[simp] theorem setPrev_opos : (setPrev p s).opos = s.opos := rfl
@[simp] theorem setPrev_phase : (setPrev p s).phase = s.phase := rfl
@[simp] theorem setPrev_errKind : (setPrev p s).errKind = s.errKind := rfl
@[simp] theorem setPrev_errCause : (setPrev p s).errCause = s.errCause := rfl
@[simp] theorem setPrev_errOffset : (setPrev p s).errOffset = s.errOffset := rfl
@[simp] theorem setPrev_errExpected : (setPrev p s).errExpected = s.errExpected := rfl
@[simp] theorem setPrev_errFound : (setPrev p s).errFound = s.errFound := rfl
@[simp] theorem setPrev_fb : (setPrev p s).fb = s.fb := rfl
@[simp] theorem setPrev_zs : (setPrev p s).zs = s.zs := rfl
@[simp] theorem setPrev_out : (setPrev p s).out = s.out := rfl
@[simp] theorem setPrev_ckOut : (setPrev p s).ckOut = s.ckOut := rfl
@[simp] theorem setPrev_freeSeq : (setPrev p s).freeSeq = s.freeSeq := rfl

end

section
variable (n : Nat) (s : State)

@[simp] theorem advancePc_host : (advancePc n s).host = s.host := rfl
@[simp] theorem advancePc_inp : (advancePc n s).inp = s.inp := rfl
@[simp] theorem advancePc_ilen : (advancePc n s).ilen = s.ilen := rfl
@[simp] theorem advancePc_ipos : (advancePc n s).ipos = s.ipos + BitVec.ofNat 64 n := rfl
@[simp] theorem advancePc_hdrWidth : (advancePc n s).hdrWidth = s.hdrWidth := rfl
@[simp] theorem advancePc_hdrHeight : (advancePc n s).hdrHeight = s.hdrHeight := rfl
@[simp] theorem advancePc_hdrChannels : (advancePc n s).hdrChannels = s.hdrChannels := rfl
@[simp] theorem advancePc_hdrColorspace : (advancePc n s).hdrColorspace = s.hdrColorspace := rfl
@[simp] theorem advancePc_prev : (advancePc n s).prev = s.prev := rfl
@[simp] theorem advancePc_pxcnt : (advancePc n s).pxcnt = s.pxcnt := rfl
@[simp] theorem advancePc_pxtotal : (advancePc n s).pxtotal = s.pxtotal := rfl
@[simp] theorem advancePc_cache : (advancePc n s).cache = s.cache := rfl
@[simp] theorem advancePc_pb : (advancePc n s).pb = s.pb := rfl
@[simp] theorem advancePc_crc : (advancePc n s).crc = s.crc := rfl
@[simp] theorem advancePc_adlerA : (advancePc n s).adlerA = s.adlerA := rfl
@[simp] theorem advancePc_adlerB : (advancePc n s).adlerB = s.adlerB := rfl
@[simp] theorem advancePc_frow : (advancePc n s).frow = s.frow := rfl
@[simp] theorem advancePc_bitbuf : (advancePc n s).bitbuf = s.bitbuf := rfl
@[simp] theorem advancePc_bitcnt : (advancePc n s).bitcnt = s.bitcnt := rfl
@[simp] theorem advancePc_blk : (advancePc n s).blk = s.blk := rfl
@[simp] theorem advancePc_opos : (advancePc n s).opos = s.opos := rfl
@[simp] theorem advancePc_phase : (advancePc n s).phase = s.phase := rfl
@[simp] theorem advancePc_errKind : (advancePc n s).errKind = s.errKind := rfl
@[simp] theorem advancePc_errCause : (advancePc n s).errCause = s.errCause := rfl
@[simp] theorem advancePc_errOffset : (advancePc n s).errOffset = s.errOffset := rfl
@[simp] theorem advancePc_errExpected : (advancePc n s).errExpected = s.errExpected := rfl
@[simp] theorem advancePc_errFound : (advancePc n s).errFound = s.errFound := rfl
@[simp] theorem advancePc_fb : (advancePc n s).fb = s.fb := rfl
@[simp] theorem advancePc_zs : (advancePc n s).zs = s.zs := rfl
@[simp] theorem advancePc_out : (advancePc n s).out = s.out := rfl
@[simp] theorem advancePc_ckOut : (advancePc n s).ckOut = s.ckOut := rfl
@[simp] theorem advancePc_freeSeq : (advancePc n s).freeSeq = s.freeSeq := rfl

end

section
variable (x : List Byte) (s : State)

@[simp] theorem emitFb_host : (emitFb x s).host = s.host := rfl
@[simp] theorem emitFb_inp : (emitFb x s).inp = s.inp := rfl
@[simp] theorem emitFb_ilen : (emitFb x s).ilen = s.ilen := rfl
@[simp] theorem emitFb_ipos : (emitFb x s).ipos = s.ipos := rfl
@[simp] theorem emitFb_hdrWidth : (emitFb x s).hdrWidth = s.hdrWidth := rfl
@[simp] theorem emitFb_hdrHeight : (emitFb x s).hdrHeight = s.hdrHeight := rfl
@[simp] theorem emitFb_hdrChannels : (emitFb x s).hdrChannels = s.hdrChannels := rfl
@[simp] theorem emitFb_hdrColorspace : (emitFb x s).hdrColorspace = s.hdrColorspace := rfl
@[simp] theorem emitFb_prev : (emitFb x s).prev = s.prev := rfl
@[simp] theorem emitFb_pxcnt : (emitFb x s).pxcnt = s.pxcnt := rfl
@[simp] theorem emitFb_pxtotal : (emitFb x s).pxtotal = s.pxtotal := rfl
@[simp] theorem emitFb_cache : (emitFb x s).cache = s.cache := rfl
@[simp] theorem emitFb_pb : (emitFb x s).pb = s.pb := rfl
@[simp] theorem emitFb_crc : (emitFb x s).crc = s.crc := rfl
@[simp] theorem emitFb_adlerA : (emitFb x s).adlerA = s.adlerA := rfl
@[simp] theorem emitFb_adlerB : (emitFb x s).adlerB = s.adlerB := rfl
@[simp] theorem emitFb_frow : (emitFb x s).frow = s.frow := rfl
@[simp] theorem emitFb_bitbuf : (emitFb x s).bitbuf = s.bitbuf := rfl
@[simp] theorem emitFb_bitcnt : (emitFb x s).bitcnt = s.bitcnt := rfl
@[simp] theorem emitFb_blk : (emitFb x s).blk = s.blk := rfl
@[simp] theorem emitFb_opos : (emitFb x s).opos = s.opos := rfl
@[simp] theorem emitFb_phase : (emitFb x s).phase = s.phase := rfl
@[simp] theorem emitFb_errKind : (emitFb x s).errKind = s.errKind := rfl
@[simp] theorem emitFb_errCause : (emitFb x s).errCause = s.errCause := rfl
@[simp] theorem emitFb_errOffset : (emitFb x s).errOffset = s.errOffset := rfl
@[simp] theorem emitFb_errExpected : (emitFb x s).errExpected = s.errExpected := rfl
@[simp] theorem emitFb_errFound : (emitFb x s).errFound = s.errFound := rfl
@[simp] theorem emitFb_fb : (emitFb x s).fb = s.fb ++ x := rfl
@[simp] theorem emitFb_zs : (emitFb x s).zs = s.zs := rfl
@[simp] theorem emitFb_out : (emitFb x s).out = s.out := rfl
@[simp] theorem emitFb_ckOut : (emitFb x s).ckOut = s.ckOut := rfl
@[simp] theorem emitFb_freeSeq : (emitFb x s).freeSeq = s.freeSeq := rfl

end

section
variable (x : List Byte) (s : State)

@[simp] theorem emitZs_host : (emitZs x s).host = s.host := rfl
@[simp] theorem emitZs_inp : (emitZs x s).inp = s.inp := rfl
@[simp] theorem emitZs_ilen : (emitZs x s).ilen = s.ilen := rfl
@[simp] theorem emitZs_ipos : (emitZs x s).ipos = s.ipos := rfl
@[simp] theorem emitZs_hdrWidth : (emitZs x s).hdrWidth = s.hdrWidth := rfl
@[simp] theorem emitZs_hdrHeight : (emitZs x s).hdrHeight = s.hdrHeight := rfl
@[simp] theorem emitZs_hdrChannels : (emitZs x s).hdrChannels = s.hdrChannels := rfl
@[simp] theorem emitZs_hdrColorspace : (emitZs x s).hdrColorspace = s.hdrColorspace := rfl
@[simp] theorem emitZs_prev : (emitZs x s).prev = s.prev := rfl
@[simp] theorem emitZs_pxcnt : (emitZs x s).pxcnt = s.pxcnt := rfl
@[simp] theorem emitZs_pxtotal : (emitZs x s).pxtotal = s.pxtotal := rfl
@[simp] theorem emitZs_cache : (emitZs x s).cache = s.cache := rfl
@[simp] theorem emitZs_pb : (emitZs x s).pb = s.pb := rfl
@[simp] theorem emitZs_crc : (emitZs x s).crc = s.crc := rfl
@[simp] theorem emitZs_adlerA : (emitZs x s).adlerA = s.adlerA := rfl
@[simp] theorem emitZs_adlerB : (emitZs x s).adlerB = s.adlerB := rfl
@[simp] theorem emitZs_frow : (emitZs x s).frow = s.frow := rfl
@[simp] theorem emitZs_bitbuf : (emitZs x s).bitbuf = s.bitbuf := rfl
@[simp] theorem emitZs_bitcnt : (emitZs x s).bitcnt = s.bitcnt := rfl
@[simp] theorem emitZs_blk : (emitZs x s).blk = s.blk := rfl
@[simp] theorem emitZs_opos : (emitZs x s).opos = s.opos := rfl
@[simp] theorem emitZs_phase : (emitZs x s).phase = s.phase := rfl
@[simp] theorem emitZs_errKind : (emitZs x s).errKind = s.errKind := rfl
@[simp] theorem emitZs_errCause : (emitZs x s).errCause = s.errCause := rfl
@[simp] theorem emitZs_errOffset : (emitZs x s).errOffset = s.errOffset := rfl
@[simp] theorem emitZs_errExpected : (emitZs x s).errExpected = s.errExpected := rfl
@[simp] theorem emitZs_errFound : (emitZs x s).errFound = s.errFound := rfl
@[simp] theorem emitZs_fb : (emitZs x s).fb = s.fb := rfl
@[simp] theorem emitZs_zs : (emitZs x s).zs = s.zs ++ x := rfl
@[simp] theorem emitZs_out : (emitZs x s).out = s.out := rfl
@[simp] theorem emitZs_ckOut : (emitZs x s).ckOut = s.ckOut := rfl
@[simp] theorem emitZs_freeSeq : (emitZs x s).freeSeq = s.freeSeq := rfl

end

section
variable (x : List Byte) (s : State)

@[simp] theorem emitOut_host : (emitOut x s).host = s.host := rfl
@[simp] theorem emitOut_inp : (emitOut x s).inp = s.inp := rfl
@[simp] theorem emitOut_ilen : (emitOut x s).ilen = s.ilen := rfl
@[simp] theorem emitOut_ipos : (emitOut x s).ipos = s.ipos := rfl
@[simp] theorem emitOut_hdrWidth : (emitOut x s).hdrWidth = s.hdrWidth := rfl
@[simp] theorem emitOut_hdrHeight : (emitOut x s).hdrHeight = s.hdrHeight := rfl
@[simp] theorem emitOut_hdrChannels : (emitOut x s).hdrChannels = s.hdrChannels := rfl
@[simp] theorem emitOut_hdrColorspace : (emitOut x s).hdrColorspace = s.hdrColorspace := rfl
@[simp] theorem emitOut_prev : (emitOut x s).prev = s.prev := rfl
@[simp] theorem emitOut_pxcnt : (emitOut x s).pxcnt = s.pxcnt := rfl
@[simp] theorem emitOut_pxtotal : (emitOut x s).pxtotal = s.pxtotal := rfl
@[simp] theorem emitOut_cache : (emitOut x s).cache = s.cache := rfl
@[simp] theorem emitOut_pb : (emitOut x s).pb = s.pb := rfl
@[simp] theorem emitOut_crc : (emitOut x s).crc = s.crc := rfl
@[simp] theorem emitOut_adlerA : (emitOut x s).adlerA = s.adlerA := rfl
@[simp] theorem emitOut_adlerB : (emitOut x s).adlerB = s.adlerB := rfl
@[simp] theorem emitOut_frow : (emitOut x s).frow = s.frow := rfl
@[simp] theorem emitOut_bitbuf : (emitOut x s).bitbuf = s.bitbuf := rfl
@[simp] theorem emitOut_bitcnt : (emitOut x s).bitcnt = s.bitcnt := rfl
@[simp] theorem emitOut_blk : (emitOut x s).blk = s.blk := rfl
@[simp] theorem emitOut_opos : (emitOut x s).opos = s.opos + BitVec.ofNat 64 x.length := rfl
@[simp] theorem emitOut_phase : (emitOut x s).phase = s.phase := rfl
@[simp] theorem emitOut_errKind : (emitOut x s).errKind = s.errKind := rfl
@[simp] theorem emitOut_errCause : (emitOut x s).errCause = s.errCause := rfl
@[simp] theorem emitOut_errOffset : (emitOut x s).errOffset = s.errOffset := rfl
@[simp] theorem emitOut_errExpected : (emitOut x s).errExpected = s.errExpected := rfl
@[simp] theorem emitOut_errFound : (emitOut x s).errFound = s.errFound := rfl
@[simp] theorem emitOut_fb : (emitOut x s).fb = s.fb := rfl
@[simp] theorem emitOut_zs : (emitOut x s).zs = s.zs := rfl
@[simp] theorem emitOut_out : (emitOut x s).out = s.out ++ x := rfl
@[simp] theorem emitOut_ckOut : (emitOut x s).ckOut = s.ckOut := rfl
@[simp] theorem emitOut_freeSeq : (emitOut x s).freeSeq = s.freeSeq := rfl

end

section
variable (s : State)

@[simp] theorem crcInit_host : (crcInit s).host = s.host := rfl
@[simp] theorem crcInit_inp : (crcInit s).inp = s.inp := rfl
@[simp] theorem crcInit_ilen : (crcInit s).ilen = s.ilen := rfl
@[simp] theorem crcInit_ipos : (crcInit s).ipos = s.ipos := rfl
@[simp] theorem crcInit_hdrWidth : (crcInit s).hdrWidth = s.hdrWidth := rfl
@[simp] theorem crcInit_hdrHeight : (crcInit s).hdrHeight = s.hdrHeight := rfl
@[simp] theorem crcInit_hdrChannels : (crcInit s).hdrChannels = s.hdrChannels := rfl
@[simp] theorem crcInit_hdrColorspace : (crcInit s).hdrColorspace = s.hdrColorspace := rfl
@[simp] theorem crcInit_prev : (crcInit s).prev = s.prev := rfl
@[simp] theorem crcInit_pxcnt : (crcInit s).pxcnt = s.pxcnt := rfl
@[simp] theorem crcInit_pxtotal : (crcInit s).pxtotal = s.pxtotal := rfl
@[simp] theorem crcInit_cache : (crcInit s).cache = s.cache := rfl
@[simp] theorem crcInit_pb : (crcInit s).pb = s.pb := rfl
@[simp] theorem crcInit_crc : (crcInit s).crc = 0xFFFFFFFF := rfl
@[simp] theorem crcInit_adlerA : (crcInit s).adlerA = s.adlerA := rfl
@[simp] theorem crcInit_adlerB : (crcInit s).adlerB = s.adlerB := rfl
@[simp] theorem crcInit_frow : (crcInit s).frow = s.frow := rfl
@[simp] theorem crcInit_bitbuf : (crcInit s).bitbuf = s.bitbuf := rfl
@[simp] theorem crcInit_bitcnt : (crcInit s).bitcnt = s.bitcnt := rfl
@[simp] theorem crcInit_blk : (crcInit s).blk = s.blk := rfl
@[simp] theorem crcInit_opos : (crcInit s).opos = s.opos := rfl
@[simp] theorem crcInit_phase : (crcInit s).phase = s.phase := rfl
@[simp] theorem crcInit_errKind : (crcInit s).errKind = s.errKind := rfl
@[simp] theorem crcInit_errCause : (crcInit s).errCause = s.errCause := rfl
@[simp] theorem crcInit_errOffset : (crcInit s).errOffset = s.errOffset := rfl
@[simp] theorem crcInit_errExpected : (crcInit s).errExpected = s.errExpected := rfl
@[simp] theorem crcInit_errFound : (crcInit s).errFound = s.errFound := rfl
@[simp] theorem crcInit_fb : (crcInit s).fb = s.fb := rfl
@[simp] theorem crcInit_zs : (crcInit s).zs = s.zs := rfl
@[simp] theorem crcInit_out : (crcInit s).out = s.out := rfl
@[simp] theorem crcInit_ckOut : (crcInit s).ckOut = s.ckOut := rfl
@[simp] theorem crcInit_freeSeq : (crcInit s).freeSeq = s.freeSeq := rfl

end

section
variable (x : List Byte) (s : State)

@[simp] theorem crcFeed_host : (crcFeed x s).host = s.host := rfl
@[simp] theorem crcFeed_inp : (crcFeed x s).inp = s.inp := rfl
@[simp] theorem crcFeed_ilen : (crcFeed x s).ilen = s.ilen := rfl
@[simp] theorem crcFeed_ipos : (crcFeed x s).ipos = s.ipos := rfl
@[simp] theorem crcFeed_hdrWidth : (crcFeed x s).hdrWidth = s.hdrWidth := rfl
@[simp] theorem crcFeed_hdrHeight : (crcFeed x s).hdrHeight = s.hdrHeight := rfl
@[simp] theorem crcFeed_hdrChannels : (crcFeed x s).hdrChannels = s.hdrChannels := rfl
@[simp] theorem crcFeed_hdrColorspace : (crcFeed x s).hdrColorspace = s.hdrColorspace := rfl
@[simp] theorem crcFeed_prev : (crcFeed x s).prev = s.prev := rfl
@[simp] theorem crcFeed_pxcnt : (crcFeed x s).pxcnt = s.pxcnt := rfl
@[simp] theorem crcFeed_pxtotal : (crcFeed x s).pxtotal = s.pxtotal := rfl
@[simp] theorem crcFeed_cache : (crcFeed x s).cache = s.cache := rfl
@[simp] theorem crcFeed_pb : (crcFeed x s).pb = s.pb := rfl
@[simp] theorem crcFeed_crc : (crcFeed x s).crc = crcSteps s.crc x := rfl
@[simp] theorem crcFeed_adlerA : (crcFeed x s).adlerA = s.adlerA := rfl
@[simp] theorem crcFeed_adlerB : (crcFeed x s).adlerB = s.adlerB := rfl
@[simp] theorem crcFeed_frow : (crcFeed x s).frow = s.frow := rfl
@[simp] theorem crcFeed_bitbuf : (crcFeed x s).bitbuf = s.bitbuf := rfl
@[simp] theorem crcFeed_bitcnt : (crcFeed x s).bitcnt = s.bitcnt := rfl
@[simp] theorem crcFeed_blk : (crcFeed x s).blk = s.blk := rfl
@[simp] theorem crcFeed_opos : (crcFeed x s).opos = s.opos := rfl
@[simp] theorem crcFeed_phase : (crcFeed x s).phase = s.phase := rfl
@[simp] theorem crcFeed_errKind : (crcFeed x s).errKind = s.errKind := rfl
@[simp] theorem crcFeed_errCause : (crcFeed x s).errCause = s.errCause := rfl
@[simp] theorem crcFeed_errOffset : (crcFeed x s).errOffset = s.errOffset := rfl
@[simp] theorem crcFeed_errExpected : (crcFeed x s).errExpected = s.errExpected := rfl
@[simp] theorem crcFeed_errFound : (crcFeed x s).errFound = s.errFound := rfl
@[simp] theorem crcFeed_fb : (crcFeed x s).fb = s.fb := rfl
@[simp] theorem crcFeed_zs : (crcFeed x s).zs = s.zs := rfl
@[simp] theorem crcFeed_out : (crcFeed x s).out = s.out := rfl
@[simp] theorem crcFeed_ckOut : (crcFeed x s).ckOut = s.ckOut := rfl
@[simp] theorem crcFeed_freeSeq : (crcFeed x s).freeSeq = s.freeSeq := rfl

end

section
variable (s : State)

@[simp] theorem crcFinal_host : (crcFinal s).host = s.host := rfl
@[simp] theorem crcFinal_inp : (crcFinal s).inp = s.inp := rfl
@[simp] theorem crcFinal_ilen : (crcFinal s).ilen = s.ilen := rfl
@[simp] theorem crcFinal_ipos : (crcFinal s).ipos = s.ipos := rfl
@[simp] theorem crcFinal_hdrWidth : (crcFinal s).hdrWidth = s.hdrWidth := rfl
@[simp] theorem crcFinal_hdrHeight : (crcFinal s).hdrHeight = s.hdrHeight := rfl
@[simp] theorem crcFinal_hdrChannels : (crcFinal s).hdrChannels = s.hdrChannels := rfl
@[simp] theorem crcFinal_hdrColorspace : (crcFinal s).hdrColorspace = s.hdrColorspace := rfl
@[simp] theorem crcFinal_prev : (crcFinal s).prev = s.prev := rfl
@[simp] theorem crcFinal_pxcnt : (crcFinal s).pxcnt = s.pxcnt := rfl
@[simp] theorem crcFinal_pxtotal : (crcFinal s).pxtotal = s.pxtotal := rfl
@[simp] theorem crcFinal_cache : (crcFinal s).cache = s.cache := rfl
@[simp] theorem crcFinal_pb : (crcFinal s).pb = s.pb := rfl
@[simp] theorem crcFinal_crc : (crcFinal s).crc = s.crc := rfl
@[simp] theorem crcFinal_adlerA : (crcFinal s).adlerA = s.adlerA := rfl
@[simp] theorem crcFinal_adlerB : (crcFinal s).adlerB = s.adlerB := rfl
@[simp] theorem crcFinal_frow : (crcFinal s).frow = s.frow := rfl
@[simp] theorem crcFinal_bitbuf : (crcFinal s).bitbuf = s.bitbuf := rfl
@[simp] theorem crcFinal_bitcnt : (crcFinal s).bitcnt = s.bitcnt := rfl
@[simp] theorem crcFinal_blk : (crcFinal s).blk = s.blk := rfl
@[simp] theorem crcFinal_opos : (crcFinal s).opos = s.opos := rfl
@[simp] theorem crcFinal_phase : (crcFinal s).phase = s.phase := rfl
@[simp] theorem crcFinal_errKind : (crcFinal s).errKind = s.errKind := rfl
@[simp] theorem crcFinal_errCause : (crcFinal s).errCause = s.errCause := rfl
@[simp] theorem crcFinal_errOffset : (crcFinal s).errOffset = s.errOffset := rfl
@[simp] theorem crcFinal_errExpected : (crcFinal s).errExpected = s.errExpected := rfl
@[simp] theorem crcFinal_errFound : (crcFinal s).errFound = s.errFound := rfl
@[simp] theorem crcFinal_fb : (crcFinal s).fb = s.fb := rfl
@[simp] theorem crcFinal_zs : (crcFinal s).zs = s.zs := rfl
@[simp] theorem crcFinal_out : (crcFinal s).out = s.out := rfl
@[simp] theorem crcFinal_ckOut : (crcFinal s).ckOut = s.crc ^^^ 0xFFFFFFFF := rfl
@[simp] theorem crcFinal_freeSeq : (crcFinal s).freeSeq = s.freeSeq := rfl

end

section
variable (s : State)

@[simp] theorem adlerInit_host : (adlerInit s).host = s.host := rfl
@[simp] theorem adlerInit_inp : (adlerInit s).inp = s.inp := rfl
@[simp] theorem adlerInit_ilen : (adlerInit s).ilen = s.ilen := rfl
@[simp] theorem adlerInit_ipos : (adlerInit s).ipos = s.ipos := rfl
@[simp] theorem adlerInit_hdrWidth : (adlerInit s).hdrWidth = s.hdrWidth := rfl
@[simp] theorem adlerInit_hdrHeight : (adlerInit s).hdrHeight = s.hdrHeight := rfl
@[simp] theorem adlerInit_hdrChannels : (adlerInit s).hdrChannels = s.hdrChannels := rfl
@[simp] theorem adlerInit_hdrColorspace : (adlerInit s).hdrColorspace = s.hdrColorspace := rfl
@[simp] theorem adlerInit_prev : (adlerInit s).prev = s.prev := rfl
@[simp] theorem adlerInit_pxcnt : (adlerInit s).pxcnt = s.pxcnt := rfl
@[simp] theorem adlerInit_pxtotal : (adlerInit s).pxtotal = s.pxtotal := rfl
@[simp] theorem adlerInit_cache : (adlerInit s).cache = s.cache := rfl
@[simp] theorem adlerInit_pb : (adlerInit s).pb = s.pb := rfl
@[simp] theorem adlerInit_crc : (adlerInit s).crc = s.crc := rfl
@[simp] theorem adlerInit_adlerA : (adlerInit s).adlerA = 1 := rfl
@[simp] theorem adlerInit_adlerB : (adlerInit s).adlerB = 0 := rfl
@[simp] theorem adlerInit_frow : (adlerInit s).frow = s.frow := rfl
@[simp] theorem adlerInit_bitbuf : (adlerInit s).bitbuf = s.bitbuf := rfl
@[simp] theorem adlerInit_bitcnt : (adlerInit s).bitcnt = s.bitcnt := rfl
@[simp] theorem adlerInit_blk : (adlerInit s).blk = s.blk := rfl
@[simp] theorem adlerInit_opos : (adlerInit s).opos = s.opos := rfl
@[simp] theorem adlerInit_phase : (adlerInit s).phase = s.phase := rfl
@[simp] theorem adlerInit_errKind : (adlerInit s).errKind = s.errKind := rfl
@[simp] theorem adlerInit_errCause : (adlerInit s).errCause = s.errCause := rfl
@[simp] theorem adlerInit_errOffset : (adlerInit s).errOffset = s.errOffset := rfl
@[simp] theorem adlerInit_errExpected : (adlerInit s).errExpected = s.errExpected := rfl
@[simp] theorem adlerInit_errFound : (adlerInit s).errFound = s.errFound := rfl
@[simp] theorem adlerInit_fb : (adlerInit s).fb = s.fb := rfl
@[simp] theorem adlerInit_zs : (adlerInit s).zs = s.zs := rfl
@[simp] theorem adlerInit_out : (adlerInit s).out = s.out := rfl
@[simp] theorem adlerInit_ckOut : (adlerInit s).ckOut = s.ckOut := rfl
@[simp] theorem adlerInit_freeSeq : (adlerInit s).freeSeq = s.freeSeq := rfl

end

section
variable (x : List Byte) (s : State)

@[simp] theorem adlerFeed_host : (adlerFeed x s).host = s.host := rfl
@[simp] theorem adlerFeed_inp : (adlerFeed x s).inp = s.inp := rfl
@[simp] theorem adlerFeed_ilen : (adlerFeed x s).ilen = s.ilen := rfl
@[simp] theorem adlerFeed_ipos : (adlerFeed x s).ipos = s.ipos := rfl
@[simp] theorem adlerFeed_hdrWidth : (adlerFeed x s).hdrWidth = s.hdrWidth := rfl
@[simp] theorem adlerFeed_hdrHeight : (adlerFeed x s).hdrHeight = s.hdrHeight := rfl
@[simp] theorem adlerFeed_hdrChannels : (adlerFeed x s).hdrChannels = s.hdrChannels := rfl
@[simp] theorem adlerFeed_hdrColorspace : (adlerFeed x s).hdrColorspace = s.hdrColorspace := rfl
@[simp] theorem adlerFeed_prev : (adlerFeed x s).prev = s.prev := rfl
@[simp] theorem adlerFeed_pxcnt : (adlerFeed x s).pxcnt = s.pxcnt := rfl
@[simp] theorem adlerFeed_pxtotal : (adlerFeed x s).pxtotal = s.pxtotal := rfl
@[simp] theorem adlerFeed_cache : (adlerFeed x s).cache = s.cache := rfl
@[simp] theorem adlerFeed_pb : (adlerFeed x s).pb = s.pb := rfl
@[simp] theorem adlerFeed_crc : (adlerFeed x s).crc = s.crc := rfl
@[simp] theorem adlerFeed_adlerA : (adlerFeed x s).adlerA = (adlerSteps (s.adlerA, s.adlerB) x).1 := rfl
@[simp] theorem adlerFeed_adlerB : (adlerFeed x s).adlerB = (adlerSteps (s.adlerA, s.adlerB) x).2 := rfl
@[simp] theorem adlerFeed_frow : (adlerFeed x s).frow = s.frow := rfl
@[simp] theorem adlerFeed_bitbuf : (adlerFeed x s).bitbuf = s.bitbuf := rfl
@[simp] theorem adlerFeed_bitcnt : (adlerFeed x s).bitcnt = s.bitcnt := rfl
@[simp] theorem adlerFeed_blk : (adlerFeed x s).blk = s.blk := rfl
@[simp] theorem adlerFeed_opos : (adlerFeed x s).opos = s.opos := rfl
@[simp] theorem adlerFeed_phase : (adlerFeed x s).phase = s.phase := rfl
@[simp] theorem adlerFeed_errKind : (adlerFeed x s).errKind = s.errKind := rfl
@[simp] theorem adlerFeed_errCause : (adlerFeed x s).errCause = s.errCause := rfl
@[simp] theorem adlerFeed_errOffset : (adlerFeed x s).errOffset = s.errOffset := rfl
@[simp] theorem adlerFeed_errExpected : (adlerFeed x s).errExpected = s.errExpected := rfl
@[simp] theorem adlerFeed_errFound : (adlerFeed x s).errFound = s.errFound := rfl
@[simp] theorem adlerFeed_fb : (adlerFeed x s).fb = s.fb := rfl
@[simp] theorem adlerFeed_zs : (adlerFeed x s).zs = s.zs := rfl
@[simp] theorem adlerFeed_out : (adlerFeed x s).out = s.out := rfl
@[simp] theorem adlerFeed_ckOut : (adlerFeed x s).ckOut = s.ckOut := rfl
@[simp] theorem adlerFeed_freeSeq : (adlerFeed x s).freeSeq = s.freeSeq := rfl

end

section
variable (s : State)

@[simp] theorem adlerFinal_host : (adlerFinal s).host = s.host := rfl
@[simp] theorem adlerFinal_inp : (adlerFinal s).inp = s.inp := rfl
@[simp] theorem adlerFinal_ilen : (adlerFinal s).ilen = s.ilen := rfl
@[simp] theorem adlerFinal_ipos : (adlerFinal s).ipos = s.ipos := rfl
@[simp] theorem adlerFinal_hdrWidth : (adlerFinal s).hdrWidth = s.hdrWidth := rfl
@[simp] theorem adlerFinal_hdrHeight : (adlerFinal s).hdrHeight = s.hdrHeight := rfl
@[simp] theorem adlerFinal_hdrChannels : (adlerFinal s).hdrChannels = s.hdrChannels := rfl
@[simp] theorem adlerFinal_hdrColorspace : (adlerFinal s).hdrColorspace = s.hdrColorspace := rfl
@[simp] theorem adlerFinal_prev : (adlerFinal s).prev = s.prev := rfl
@[simp] theorem adlerFinal_pxcnt : (adlerFinal s).pxcnt = s.pxcnt := rfl
@[simp] theorem adlerFinal_pxtotal : (adlerFinal s).pxtotal = s.pxtotal := rfl
@[simp] theorem adlerFinal_cache : (adlerFinal s).cache = s.cache := rfl
@[simp] theorem adlerFinal_pb : (adlerFinal s).pb = s.pb := rfl
@[simp] theorem adlerFinal_crc : (adlerFinal s).crc = s.crc := rfl
@[simp] theorem adlerFinal_adlerA : (adlerFinal s).adlerA = s.adlerA := rfl
@[simp] theorem adlerFinal_adlerB : (adlerFinal s).adlerB = s.adlerB := rfl
@[simp] theorem adlerFinal_frow : (adlerFinal s).frow = s.frow := rfl
@[simp] theorem adlerFinal_bitbuf : (adlerFinal s).bitbuf = s.bitbuf := rfl
@[simp] theorem adlerFinal_bitcnt : (adlerFinal s).bitcnt = s.bitcnt := rfl
@[simp] theorem adlerFinal_blk : (adlerFinal s).blk = s.blk := rfl
@[simp] theorem adlerFinal_opos : (adlerFinal s).opos = s.opos := rfl
@[simp] theorem adlerFinal_phase : (adlerFinal s).phase = s.phase := rfl
@[simp] theorem adlerFinal_errKind : (adlerFinal s).errKind = s.errKind := rfl
@[simp] theorem adlerFinal_errCause : (adlerFinal s).errCause = s.errCause := rfl
@[simp] theorem adlerFinal_errOffset : (adlerFinal s).errOffset = s.errOffset := rfl
@[simp] theorem adlerFinal_errExpected : (adlerFinal s).errExpected = s.errExpected := rfl
@[simp] theorem adlerFinal_errFound : (adlerFinal s).errFound = s.errFound := rfl
@[simp] theorem adlerFinal_fb : (adlerFinal s).fb = s.fb := rfl
@[simp] theorem adlerFinal_zs : (adlerFinal s).zs = s.zs := rfl
@[simp] theorem adlerFinal_out : (adlerFinal s).out = s.out := rfl
@[simp] theorem adlerFinal_ckOut : (adlerFinal s).ckOut = adlerValue (s.adlerA, s.adlerB) := rfl
@[simp] theorem adlerFinal_freeSeq : (adlerFinal s).freeSeq = s.freeSeq := rfl

end

end Sys2Proof.Machine
end

