-- ==== Sys2Proof/Laws/Ops.lean ====
section
/-! SUPPORT. For each shared operation, one lemma that says what it can answer; later proofs cite these instead of unfolding. -/
namespace Sys2Proof.Machine

variable {s t : State} {x : Result} {f : State → Result}

@[simp] theorem andThen_next (s : State) (f : State → Result) : andThen (.next s) f = f s := rfl

@[simp] theorem andThen_fault (r : Fault) (f : State → Result) : andThen (.fault r) f = .fault r := rfl

@[simp] theorem andThen_refused (r : Refusal) (f : State → Result) :
    andThen (.refused r) f = .refused r := rfl

theorem andThen_eq_next : andThen x f = .next t ↔ ∃ u, x = .next u ∧ f u = .next t := by
  cases x <;> simp

@[simp] theorem hw_filterMode : Config.hw.filterMode = .none := rfl

@[simp] theorem hw_blockMax : Config.hw.blockMax = 65535 := rfl

@[simp] theorem hw_idatMax : Config.hw.idatMax = 2147483647 := rfl

@[simp] theorem hw_trailing : Config.hw.trailing = .ignore := rfl

@[simp] theorem hw_maxPixels : Config.hw.maxPixels = 4294967295 := rfl

/-- `raise` is R300's record update. -/
theorem raise_eq (k : ErrCause) (o : Offset) (e f : Word64) (s : State) :
    raise k o e f s =
      { s with
        errKind := causeKind k, errCause := k, errOffset := o, errExpected := e, errFound := f,
        phase := .error, pb := [], fb := [], zs := [], out := [], opos := 0 } := rfl

theorem produce_of_lt (p : Pixel) (h : s.pxcnt.toNat < s.pxtotal.toNat) :
    produce p s =
      .next { s with pb := Cells.write s.pb s.pxcnt.toNat p, pxcnt := s.pxcnt + 1 } := by
  unfold produce
  rw [if_pos (by simpa [BitVec.lt_def] using h)]

/-- All that `produce` can do. -/
theorem produce_eq_next (p : Pixel) :
    produce p s = .next t ↔
      s.pxcnt.toNat < s.pxtotal.toNat ∧
        t = { s with pb := Cells.write s.pb s.pxcnt.toNat p, pxcnt := s.pxcnt + 1 } := by
  by_cases h : s.pxcnt.toNat < s.pxtotal.toNat
  · rw [produce_of_lt p h]
    simp [h, eq_comm]
  · unfold produce
    rw [if_neg (by simpa [BitVec.lt_def] using h)]
    simp [h]

theorem toNat_succ_of_lt {a b : Word32} (h : a.toNat < b.toNat) : (a + 1).toNat = a.toNat + 1 := by
  have h1 : (1 : Word32).toNat = 1 := rfl
  have := b.isLt
  rw [BitVec.toNat_add, h1]
  omega

/-- All that `putPixel` can do. -/
theorem putPixel_eq_next (n : Nat) (p : Pixel) :
    putPixel n p s = .next t ↔
      s.pxcnt.toNat < s.pxtotal.toNat ∧
        t = { s with
              pb := Cells.write s.pb s.pxcnt.toNat p, pxcnt := s.pxcnt + 1,
              cache := s.cache.set (hash p).val p (hash p).isLt, prev := p,
              ipos := s.ipos + BitVec.ofNat 64 n } := by
  unfold putPixel
  rw [andThen_eq_next]
  simp only [produce_eq_next, Host.Outcome.next.injEq]
  constructor
  · rintro ⟨u, ⟨h, rfl⟩, rfl⟩
    exact ⟨h, rfl⟩
  · rintro ⟨h, rfl⟩
    exact ⟨_, ⟨h, rfl⟩, rfl⟩

/-- All that the presence checks of a chunk can do (R124, R126). -/
theorem withChunk_eq_next (n : Nat) (k : State → Result) :
    withChunk n s k = .next t ↔
      (s.ilen.toNat ≤ s.ipos.toNat ∧ t = raise .truncatedChunk s.ipos 1 0 s) ∨
      (s.ipos.toNat < s.ilen.toNat ∧ s.ilen.toNat < s.ipos.toNat + n ∧
        t = raise .truncatedChunk s.ipos (BitVec.ofNat 64 n) (s.ilen - s.ipos) s) ∨
      (s.ipos.toNat < s.ilen.toNat ∧ s.ipos.toNat + n ≤ s.ilen.toNat ∧ k s = .next t) := by
  unfold withChunk
  split_ifs with h1 h2
  · simp only [Host.Outcome.next.injEq, h1, true_and, eq_comm (a := t)]
    constructor
    · exact .inl
    · rintro (h | h | h)
      · exact h
      · omega
      · omega
  · simp only [Host.Outcome.next.injEq, eq_comm (a := t)]
    constructor
    · exact fun h => .inr (.inl ⟨by omega, h2, h⟩)
    · rintro (h | h | h)
      · omega
      · exact h.2.2
      · omega
  · constructor
    · exact fun h => .inr (.inr ⟨by omega, by omega, h⟩)
    · rintro (h | h | h)
      · omega
      · omega
      · exact h.2.2

theorem withChunk_of_ready (n : Nat) (k : State → Result) (hn : 0 < n)
    (h : s.ipos.toNat + n ≤ s.ilen.toNat) : withChunk n s k = k s := by
  unfold withChunk
  rw [if_neg (by omega), if_neg (by omega)]

/-- A run that fits writes its pixels in order and counts them; nothing else changes (R138). -/
theorem produceMany_of_le (p : Pixel) (n : Nat) (s : State)
    (h : s.pxcnt.toNat + n ≤ s.pxtotal.toNat) :
    ∃ t, produceMany p n s = .next t ∧
      t = { s with pb := t.pb, pxcnt := s.pxcnt + BitVec.ofNat 32 n } ∧
      t.pxcnt.toNat = s.pxcnt.toNat + n ∧
      (s.pb.map Prod.fst = List.range s.pxcnt.toNat →
        t.pb.map Prod.fst = List.range (s.pxcnt.toNat + n)) ∧
      ∀ a, pbRead t a =
        if s.pxcnt.toNat ≤ a ∧ a < s.pxcnt.toNat + n then some p else pbRead s a := by
  induction n generalizing s with
  | zero =>
    exact ⟨s, rfl, by simp, rfl, id, fun a => by rw [if_neg (by omega)]⟩
  | succ n ih =>
    have h1 : s.pxcnt.toNat < s.pxtotal.toNat := by omega
    have h2 := toNat_succ_of_lt h1
    obtain ⟨t, ht, he, hc, hpb, hr⟩ := ih
      { s with pb := Cells.write s.pb s.pxcnt.toNat p, pxcnt := s.pxcnt + 1 }
      (by simp only [h2]; omega)
    simp only [h2] at hc hpb hr
    refine ⟨t, ?_, ?_, by omega, ?_, ?_⟩
    · simp only [produceMany, produce_of_lt p h1, andThen_next, ht]
    · have e : s.pxcnt + 1 + BitVec.ofNat 32 n = s.pxcnt + BitVec.ofNat 32 (n + 1) := by
        rw [Nat.add_comm n 1, BitVec.ofNat_add, ← BitVec.add_assoc]
        rfl
      rw [← e]
      exact he
    · intro hs
      have := hpb (Cells.write_map_fst_range _ _ _ hs)
      rw [this]
      congr 1
      omega
    · intro a
      rw [hr a]
      simp only [pbRead, Cells.read_write]
      split_ifs <;> first | rfl | omega

/-- The header is refused by a raise, or latched (R122, R141). -/
theorem headerWith_cases (cfg : Params) (m w h : Word32) (c cs : Byte) (s : State) :
    (∃ k o e f, headerWith cfg m w h c cs s = raise k o e f s ∧ k ≠ .none ∧ k ≠ .reservedTag) ∨
    (14 ≤ s.ilen.toNat ∧ w ≠ 0 ∧ h ≠ 0 ∧ (c = 3 ∨ c = 4) ∧ (cs = 0 ∨ cs = 1) ∧
      w.toNat * h.toNat * c.toNat < 2 ^ 32 ∧
      headerWith cfg m w h c cs s =
        { s with
          hdrWidth := w, hdrHeight := h, hdrChannels := c, hdrColorspace := cs,
          pxtotal := BitVec.ofNat 32 (w.toNat * h.toNat), ipos := 14 }) := by
  unfold headerWith latchHeader
  by_cases h1 : s.ilen.toNat < 14
  · exact .inl ⟨.truncatedHeader, _, _, _, if_pos h1, by decide, by decide⟩
  rw [if_neg h1]
  by_cases h2 : m ≠ qoiMagic
  · exact .inl ⟨.badMagic, _, _, _, if_pos h2, by decide, by decide⟩
  rw [if_neg h2]
  by_cases h3 : w = 0
  · exact .inl ⟨.zeroWidth, _, _, _, if_pos h3, by decide, by decide⟩
  rw [if_neg h3]
  by_cases h4 : h = 0
  · exact .inl ⟨.zeroHeight, _, _, _, if_pos h4, by decide, by decide⟩
  rw [if_neg h4]
  by_cases h5 : c ≠ 3 ∧ c ≠ 4
  · exact .inl ⟨.badChannels, _, _, _, if_pos h5, by decide, by decide⟩
  rw [if_neg h5]
  by_cases h6 : cs ≠ 0 ∧ cs ≠ 1
  · exact .inl ⟨.badColorspace, _, _, _, if_pos h6, by decide, by decide⟩
  rw [if_neg h6]
  by_cases h7 : 2 ^ 32 ≤ w.toNat * h.toNat * c.toNat
  · exact .inl ⟨.sizeOverflow, _, _, _, if_pos h7, by decide, by decide⟩
  rw [if_neg h7]
  by_cases h8 : cfg.maxPixels < w.toNat * h.toNat
  · exact .inl ⟨.capacity, _, _, _, if_pos h8, by decide, by decide⟩
  rw [if_neg h8]
  exact .inr ⟨not_lt.mp h1, h3, h4, by tauto, by tauto, not_le.mp h7, rfl⟩

/-- END is refused by a raise, or moves `pc` past the marker (R144, R145). -/
theorem endWith_cases (cfg : Params) (m : Word64) (s : State) :
    (∃ k o e f u, endWith cfg m s = raise k o e f u ∧ k ≠ .none ∧ k ≠ .reservedTag ∧
      (u = s ∨ u = advancePc 8 s)) ∨
    (s.ipos.toNat + 8 ≤ s.ilen.toNat ∧ m = endMarkerValue ∧ endWith cfg m s = advancePc 8 s) := by
  unfold endWith raiseShortMarker trailingCheck
  by_cases h1 : s.ilen.toNat < s.ipos.toNat + 8
  · exact .inl ⟨.badEndMarker, _, _, _, s, if_pos h1, by decide, by decide, .inl rfl⟩
  rw [if_neg h1]
  by_cases h2 : m ≠ endMarkerValue
  · exact .inl ⟨.badEndMarker, _, _, _, s, if_pos h2, by decide, by decide, .inl rfl⟩
  rw [if_neg h2]
  by_cases h3 : (advancePc 8 s).ipos.toNat < (advancePc 8 s).ilen.toNat ∧ cfg.trailing = .reject
  · exact .inl ⟨.trailingData, _, _, _, _, if_pos h3, by decide, by decide, .inr rfl⟩
  exact .inr ⟨not_lt.mp h1, not_not.mp h2, if_neg h3⟩

/-- `frameChunk` answers the framed chunk and leaves its CRC in `crc` and on the result port (R233). -/
theorem frameChunk_eq_next (ty : Word32) (d : List Byte) :
    frameChunk ty d s = .next t ↔
      d.length ≤ chunkDataMax ∧
        t = { emitOut (chunkBytes ty d) s with
              crc := crcSteps 0xFFFFFFFF (be32 ty ++ d), ckOut := crc32 (be32 ty ++ d) } := by
  unfold frameChunk
  split_ifs with h
  · simp only [false_iff, not_and]
    intro h'
    omega
  · simp only [Host.Outcome.next.injEq, eq_comm (a := t)]
    constructor
    · exact fun e => ⟨by omega, e⟩
    · exact fun e => e.2

@[simp] theorem be32_length (v : Word32) : (be32 v).length = 4 := rfl

@[simp] theorem be64_length (v : Word64) : (be64 v).length = 8 := rfl

@[simp] theorem le16_length (v : BitVec 16) : (le16 v).length = 2 := rfl

/-- A framed chunk has 12 bytes beside its data (R233). -/
@[simp] theorem chunkBytes_length (ty : Word32) (d : List Byte) :
    (chunkBytes ty d).length = 12 + d.length := by
  simp [chunkBytes]
  omega

@[simp] theorem ihdrPayload_length (w h : Word32) (c : Byte) : (ihdrPayload w h c).length = 13 := rfl

@[simp] theorem pngSignatureBytes_length : pngSignatureBytes.length = 8 := rfl

@[simp] theorem storedBlockBytes_length (final : Bool) (p : List Byte) :
    (storedBlockBytes final p).length = 5 + p.length := by
  simp [storedBlockBytes]
  omega

/-- The three header bits of a stored block and the alignment make one byte, 1 for the final block and 0 for another (R207, R208). -/
theorem blockHeader_bits (final : Bool) (s : State) (hb : s.bitbuf = 0) (hc : s.bitcnt = 0) :
    bitsAlign (bitsPut 0 2 (bitsPut ((BitVec.ofBool final).zeroExtend 16) 1 s)) =
      emitZs [if final then 0x01 else 0x00] s := by
  have r1 : List.range 1 = [0] := rfl
  have r2 : List.range 2 = [0, 1] := rfl
  cases final <;> simp [bitsPut, r1, r2, putBit, bitsAlign, emitZs, hb, hc]

/-- DEFLATE.STORED's bytes, and the other state it writes (R206, R208, R209, R213). -/
theorem storedBlock_eq (final : Bool) (p : List Byte) (s : State)
    (hb : s.bitbuf = 0) (hc : s.bitcnt = 0) (hp : p.length ≤ 65535) :
    storedBlock final p s =
      { s with
        zs := s.zs ++ storedBlockBytes final p, blk := s.blk + 1,
        adlerA := (adlerSteps (s.adlerA, s.adlerB) p).1,
        adlerB := (adlerSteps (s.adlerA, s.adlerB) p).2 } := by
  have hn : ~~~ BitVec.ofNat 16 p.length = BitVec.ofNat 16 (65535 - p.length) := by
    apply BitVec.eq_of_toNat_eq
    simp only [BitVec.toNat_not, BitVec.toNat_ofNat]
    omega
  unfold storedBlock
  simp only [blockHeader_bits final s hb hc, hn]
  simp [emitZs, adlerFeed, storedBlockBytes]

/-- Both sums of Adler-32 stay below the modulus (R167). -/
theorem adlerSteps_lt (ab : BitVec 16 × BitVec 16) (p : List Byte)
    (h : ab.1.toNat < adlerMod ∧ ab.2.toNat < adlerMod) :
    (adlerSteps ab p).1.toNat < adlerMod ∧ (adlerSteps ab p).2.toNat < adlerMod := by
  induction p generalizing ab with
  | nil => exact h
  | cons v t ih =>
    refine ih (adlerStep ab v) ?_
    have key : ∀ n : Nat, (BitVec.ofNat 16 (n % adlerMod)).toNat < adlerMod := fun n => by
      have := Nat.mod_lt n (show 0 < adlerMod by decide)
      simp only [BitVec.toNat_ofNat]
      exact lt_of_le_of_lt (Nat.mod_le _ _) this
    exact ⟨key _, key _⟩

/-- There is at least one stored block (R210). -/
theorem blockCount_pos (cfg : Params) (n : Nat) : 0 < blockCount cfg n := by
  unfold blockCount
  omega

theorem blockPiece_length (cfg : Params) (fb : List Byte) (i : Nat) :
    (blockPiece cfg fb i).length = min cfg.blockMax (fb.length - i * cfg.blockMax) := by
  simp [blockPiece]

theorem idatPiece_length (cfg : Params) (zs : List Byte) (j : Nat) :
    (idatPiece cfg zs j).length = min cfg.idatMax (zs.length - j * cfg.idatMax) := by
  simp [idatPiece]

@[simp] theorem pixelBytes_length (c : Byte) (p : Pixel) (h : c = 3 ∨ c = 4) :
    (pixelBytes c p).length = c.toNat := by
  rcases h with rfl | rfl <;> rfl

end Sys2Proof.Machine
end

