-- ==== Sys2Proof/Laws/PerInstr.lean ====
section
/-! SUPPORT. Facts about every instruction as syntax, one lemma per constructor: the length of its encoding (R90, R98, R99, R104). -/
namespace Sys2Proof.Laws

/-- The bytes an instruction takes (R90, R98, R99; a command is one CTRL byte, R36); an operation without an encoding takes none. -/
def encodedLength : Instr → Nat
  | .rgb _ _ _ => 4
  | .rgba _ _ _ _ => 5
  | .index _ => 1
  | .diff _ _ _ => 1
  | .luma _ _ _ => 2
  | .run _ => 1
  | .header _ _ _ _ _ => 14
  | .endMarker _ => 8
  | .start => 1
  | .sreset => 1
  | .crcInit => 0
  | .crcUpdate _ => 0
  | .crcFinal => 0
  | .adlerInit => 0
  | .adlerUpdate _ => 0
  | .adlerFinal => 0
  | .filtRow => 0
  | .zlibHeader => 0
  | .bitsPut _ _ => 0
  | .bitsAlign => 0
  | .deflateStored => 0
  | .zlibTrailer => 0
  | .pngSignature => 0
  | .pngChunk _ _ => 0
  | .pngIhdr => 0
  | .pngIdat _ => 0
  | .pngIend => 0

/-- The encoder writes that many bytes. -/
def EncodeLength.Statement (i : Instr) : Prop := (encode i).length = encodedLength i

theorem EncodeLength.rgb (r g b : Byte) :
    EncodeLength.Statement (.rgb r g b) := rfl

theorem EncodeLength.rgba (r g b a : Byte) :
    EncodeLength.Statement (.rgba r g b a) := rfl

theorem EncodeLength.index (slot : Fin 64) :
    EncodeLength.Statement (.index slot) := rfl

theorem EncodeLength.diff (dr dg db : Int) :
    EncodeLength.Statement (.diff dr dg db) := rfl

theorem EncodeLength.luma (dg drdg dbdg : Int) :
    EncodeLength.Statement (.luma dg drdg dbdg) := rfl

theorem EncodeLength.run (count : Nat) :
    EncodeLength.Statement (.run count) := rfl

theorem EncodeLength.header (magic w h : Word32) (c cs : Byte) :
    EncodeLength.Statement (.header magic w h c cs) := rfl

theorem EncodeLength.endMarker (marker : Word64) :
    EncodeLength.Statement (.endMarker marker) := rfl

theorem EncodeLength.start :
    EncodeLength.Statement .start := rfl

theorem EncodeLength.sreset :
    EncodeLength.Statement .sreset := rfl

theorem EncodeLength.crcInit :
    EncodeLength.Statement .crcInit := rfl

theorem EncodeLength.crcUpdate (v : Byte) :
    EncodeLength.Statement (.crcUpdate v) := rfl

theorem EncodeLength.crcFinal :
    EncodeLength.Statement .crcFinal := rfl

theorem EncodeLength.adlerInit :
    EncodeLength.Statement .adlerInit := rfl

theorem EncodeLength.adlerUpdate (v : Byte) :
    EncodeLength.Statement (.adlerUpdate v) := rfl

theorem EncodeLength.adlerFinal :
    EncodeLength.Statement .adlerFinal := rfl

theorem EncodeLength.filtRow :
    EncodeLength.Statement .filtRow := rfl

theorem EncodeLength.zlibHeader :
    EncodeLength.Statement .zlibHeader := rfl

theorem EncodeLength.bitsPut (v : BitVec 16) (k : Nat) :
    EncodeLength.Statement (.bitsPut v k) := rfl

theorem EncodeLength.bitsAlign :
    EncodeLength.Statement .bitsAlign := rfl

theorem EncodeLength.deflateStored :
    EncodeLength.Statement .deflateStored := rfl

theorem EncodeLength.zlibTrailer :
    EncodeLength.Statement .zlibTrailer := rfl

theorem EncodeLength.pngSignature :
    EncodeLength.Statement .pngSignature := rfl

theorem EncodeLength.pngChunk (type : Word32) (data : List Byte) :
    EncodeLength.Statement (.pngChunk type data) := rfl

theorem EncodeLength.pngIhdr :
    EncodeLength.Statement .pngIhdr := rfl

theorem EncodeLength.pngIdat (piece : Nat) :
    EncodeLength.Statement (.pngIdat piece) := rfl

theorem EncodeLength.pngIend :
    EncodeLength.Statement .pngIend := rfl

end Sys2Proof.Laws
end

