-- ==== Sys2Proof/Tests/Slice0.lean ====
section
/-! SUPPORT. Tests: the expected values are the spec's (95_test_vectors.md ids in the comments), and a witness for the hypotheses of every statement that has some. -/
namespace Sys2Proof.Tests
open Sys2Proof.Machine

/- Well-formedness: one ill-formed term for each check. -/

theorem test_wf_diff_low : wellFormed (.diff (-3) 0 0) = false := by decide
theorem test_wf_diff_mid : wellFormed (.diff 0 2 0) = false := by decide
theorem test_wf_diff_high : wellFormed (.diff 0 0 2) = false := by decide
theorem test_wf_luma_dg : wellFormed (.luma 32 0 0) = false := by decide
theorem test_wf_luma_drdg : wellFormed (.luma 0 (-9) 0) = false := by decide
theorem test_wf_luma_dbdg : wellFormed (.luma 0 0 8) = false := by decide
theorem test_wf_run_zero : wellFormed (.run 0) = false := by decide
theorem test_wf_run_reserved : wellFormed (.run 63) = false := by decide
theorem test_wf_header_magic : wellFormed (.header 0x716F6978 2 1 3 0) = false := by decide
theorem test_wf_end_marker : wellFormed (.endMarker 2) = false := by decide
theorem test_wf_bits_count : wellFormed (.bitsPut 0 0) = false := by decide
theorem test_wf_bits_wide : wellFormed (.bitsPut 0 17) = false := by decide
theorem test_wf_bits_value : wellFormed (.bitsPut 2 1) = false := by decide
theorem test_wf_chunk_long :
    wellFormed (.pngChunk 0 (List.replicate 2147483648 0)) = false := by
  simp only [wellFormed, List.length_replicate, decide_eq_false_iff_not]; norm_num

/- Decoding: words written out from R92 to R99 and R36, and the lead-byte vectors T1 to T16. -/

/-- RGB: 1111_1110 rrrr_rrrr gggg_gggg bbbb_bbbb (T14). -/
theorem test_decode_rgb :
    decode .chunk [0b11111110, 9, 8, 7] = .ok (.rgb 9 8 7, []) := by decide
/-- RGBA: 1111_1111, then r, g, b, a (T15). -/
theorem test_decode_rgba :
    decode .chunk [0b11111111, 9, 8, 7, 6] = .ok (.rgba 9 8 7 6, []) := by decide
/-- INDEX: 00 iiiiii (T2). -/
theorem test_decode_index : decode .chunk [0b00111111] = .ok (.index 63, []) := by decide
/-- DIFF: 01 rr gg bb, fields 0, 3, 2 (T6). -/
theorem test_decode_diff : decode .chunk [0b01001110] = .ok (.diff (-2) 1 0, []) := by decide
/-- DIFF, T7. -/
theorem test_decode_diff_T7 : decode .chunk [0x5B] = .ok (.diff (-1) 0 1, []) := by decide
/-- LUMA: 10 gggggg, rrrr bbbb, fields 37, 3, 12 (T11). -/
theorem test_decode_luma :
    decode .chunk [0b10100101, 0b00111100] = .ok (.luma 5 (-5) 4, []) := by decide
/-- The second byte of a LUMA is no tag (section 2.1). -/
theorem test_decode_luma_operand : decode .chunk [0xA0, 0xFE] = .ok (.luma 0 7 6, []) := by decide
/-- RUN: 11 cccccc (T12, T13). -/
theorem test_decode_run : decode .chunk [0b11000000] = .ok (.run 1, []) := by decide
theorem test_decode_run_max : decode .chunk [0b11111101] = .ok (.run 62, []) := by decide
/-- HEADER (D1). -/
theorem test_decode_header :
    decode .header [0x71, 0x6F, 0x69, 0x66, 0, 0, 0, 2, 0, 0, 0, 1, 3, 0] =
      .ok (.header 0x716F6966 2 1 3 0, []) := by decide
/-- END (R99). -/
theorem test_decode_end :
    decode .endMarker [0, 0, 0, 0, 0, 0, 0, 1] = .ok (.endMarker 1, []) := by decide
/-- CTRL bits (R36): START, SRESET, both, none. -/
theorem test_decode_start : decode .ctrl [0b00000001] = .ok (.start, []) := by decide
theorem test_decode_sreset : decode .ctrl [0b00000010] = .ok (.sreset, []) := by decide
theorem test_decode_both : decode .ctrl [3] = .ok (.sreset, []) := by decide
theorem test_decode_none : decode .ctrl [4] = .error .noCommand := by decide
/-- A truncated chunk (E9c). -/
theorem test_decode_cut : decode .chunk [0xFE, 1, 2] = .error (.truncatedChunk 4 3) := by decide

theorem test_table_rows :
    decodeTableWord 32 0x070809FE = some (.rgb 9 8 7) ∧
      decodeTableWord 40 0x06070809FF = some (.rgba 9 8 7 6) ∧
      decodeTableWord 8 0x3F = some (.index 63) ∧ decodeTableWord 8 0x4E = some (.diff (-2) 1 0) ∧
      decodeTableWord 16 0x3CA5 = some (.luma 5 (-5) 4) ∧
      decodeTableWord 8 0xFD = some (.run 62) ∧ decodeTableWord 8 1 = some .start ∧
      decodeTableWord 8 2 = some .sreset ∧
      decodeTableWord 64 0x0100000000000000 = some (.endMarker 1) ∧
      decodeTableWord 112 0x0003010000000200000066696F71 = some (.header 0x716F6966 2 1 3 0) := by decide

/-- A placed word runs as the very next step from reset. -/
theorem test_placed_word_runs :
    (nextState? (step (State.reset.withFetchWord 32 0x070809FE))).map (fun t => (t.prev, t.pxcnt)) =
      some (⟨9, 8, 7, 255⟩, 1) ∧
    (nextState? (step (State.reset.withFetchWord 112 0x0003010000000200000066696F71))).map
      (fun t => (t.hdrWidth, t.hdrHeight, t.phase)) = some (2, 1, .decBody) ∧
    (nextState? (step (State.reset.withFetchWord 64 0x0100000000000000))).map (·.phase) =
      some .filter ∧
    (nextState? (step (State.reset.withFetchWord 8 1))).map (·.phase) = some .decHdr := by decide

/- One step each. -/

/-- A chunk at offset 14 of which `n` bytes are there, two pixels owed. -/
def chunkAt (n : Nat) : State :=
  { State.reset with
    phase := .decBody, ipos := 14, ilen := BitVec.ofNat 64 (14 + n), hdrWidth := 2, hdrHeight := 1,
    hdrChannels := 3, pxtotal := 2 }

/-- The pixel made, the cache slot's content after, `pxcnt`, `ipos`. -/
def seen (slot : Fin 64) (x : Result) : Option (Pixel × Pixel × Word32 × Offset) :=
  (nextState? x).map fun t => (t.prev, cacheRead t slot, t.pxcnt, t.ipos)

/-- Q1. -/
theorem test_rgb :
    seen 32 (exec (.rgb 9 8 7) { chunkAt 4 with prev := ⟨1, 2, 3, 4⟩ }) =
      some (⟨9, 8, 7, 4⟩, ⟨9, 8, 7, 4⟩, 1, 18) := by decide
/-- Q2. -/
theorem test_rgba :
    seen 54 (exec (.rgba 9 8 7 6) { chunkAt 5 with prev := ⟨1, 2, 3, 4⟩ }) =
      some (⟨9, 8, 7, 6⟩, ⟨9, 8, 7, 6⟩, 1, 19) := by decide
/-- Q13. -/
theorem test_index :
    seen 53 (exec (.index 53) (chunkAt 1)) = some (⟨0, 0, 0, 0⟩, ⟨0, 0, 0, 0⟩, 1, 15) := by decide
/-- Q7. -/
theorem test_diff :
    seen 8 (exec (.diff (-1) 0 1) { chunkAt 1 with prev := ⟨128, 0, 255, 1⟩ }) =
      some (⟨127, 0, 0, 1⟩, ⟨127, 0, 0, 1⟩, 1, 15) := by decide
/-- Q8. -/
theorem test_luma :
    seen 28 (exec (.luma (-32) (-8) (-8)) { chunkAt 2 with prev := ⟨10, 20, 30, 40⟩ }) =
      some (⟨226, 244, 246, 40⟩, ⟨226, 244, 246, 40⟩, 1, 16) := by decide
/-- Q16 and R150: a RUN of the initial pixel leaves its slot alone. -/
theorem test_run :
    seen 53 (exec (.run 2) (chunkAt 1)) = some (⟨0, 0, 0, 255⟩, ⟨0, 0, 0, 0⟩, 2, 15) := by decide

/-- The latches: kind, cause, offset, expected, found, `pxcnt`. -/
def latches (x : Result) : Option (Nat × Nat × Nat × Nat × Nat × Nat) :=
  (nextState? x).map fun t =>
    (kindCode t.errKind, causeCode t.errCause, t.errOffset.toNat, t.errExpected.toNat,
      t.errFound.toNat, t.pxcnt.toNat)

/-- E11. -/
theorem test_run_overflow : latches (exec (.run 3) (chunkAt 9)) = some (1, 6, 14, 2, 3, 0) := by
  decide
/-- E9d. -/
theorem test_truncated : latches (exec (.rgba 1 2 3 0) (chunkAt 4)) = some (1, 5, 14, 5, 4, 0) := by
  decide

/-- Before HEADER, the whole header there. -/
def headerAt : State := { State.reset with phase := .decHdr, ilen := 30 }

/-- D4: the largest product that passes. -/
theorem test_header :
    (nextState? (exec (.header 0x716F6966 1431655765 1 3 0) headerAt)).map
      (fun t => (t.hdrWidth, t.pxtotal, t.ipos, t.errCause)) =
      some (1431655765, 1431655765, 14, .none) := by decide
/-- E8b: the product saturates. -/
theorem test_header_overflow :
    latches (exec (.header 0x716F6966 0xFFFFFFFF 0xFFFFFFFF 4 0) headerAt) =
      some (2, 18, 4, 0xFFFFFFFF, 0xFFFFFFFFFFFFFFFF, 0) := by decide

/-- The marker's place, at offset 22 of 30. -/
def endAt : State := { chunkAt 0 with phase := .decEnd, ipos := 22, ilen := 30, pxcnt := 2 }

/-- E14c, and P1's marker. -/
theorem test_end :
    latches (exec (.endMarker 0x0100000000000000) endAt) =
      some (1, 7, 22, 1, 0x0100000000000000, 2) ∧
    (nextState? (exec (.endMarker 1) endAt)).map (·.ipos) = some 30 := by decide
/-- E13c: a short marker, three bytes 00 00 01. -/
theorem test_end_short :
    latches (step { endAt with ilen := 25, inp := [(22, 0), (23, 0), (24, 1)] }) =
      some (1, 7, 22, 1, 1, 2) := by decide
/-- E15b. -/
theorem test_end_trailing :
    latches (.next (endWith { Config.hw with trailing := .reject } 1 { endAt with ilen := 32 })) =
      some (1, 9, 30, 0, 2, 2) := by decide

/-- X4, X6. -/
theorem test_start :
    (nextState? (exec .start endAt)).map statusWord = some 0x31 ∧
      (nextState? (exec .start { endAt with phase := .error })).map statusWord = some 0x11 := by
  decide
theorem test_sreset :
    (nextState? (exec .sreset endAt)).map (fun t => (statusWord t, t.ilen)) = some (0, 0) := by
  decide
/-- X7: both bits. X5: ILEN while BUSY. -/
theorem test_host_writes :
    (nextState? (step { endAt with host := [.write .ctrl 3] })).map statusWord = some 0 ∧
      (nextState? (step { endAt with host := [.write .ilen 5] })).map (·.ilen) = some 30 := by
  decide

/-- R270 steps 3 and 5: a wait stays while the block runs, and ends in DONE; then the next image may be placed. -/
theorem test_wait :
    (nextState? (step { endAt with ilen := 22, host := [.waitEnd, .poll] })).map (fun t => (t.host, t.phase)) =
        some ([.waitEnd, .poll], .error) ∧
      (nextState? (step { endAt with phase := .done, host := [.waitEnd, .placeIn 0 [7]] })).map
        (fun t => (t.host, t.phase)) = some ([.placeIn 0 [7]], .done) := by decide
/-- A poll lets one operation pass. -/
theorem test_poll :
    (nextState? (step { endAt with ilen := 22, host := [.poll, .write .ilen 5] })).map
      (fun t => (t.host, t.phase)) = some ([.write .ilen 5], .error) := by decide

/-- K3, K2, K20 and section 2.6's table entries. -/
theorem test_crc :
    crc32 [0x61] = 0xE8B7BE43 ∧ crc32 [] = 0 ∧
      crc32 [0x49, 0x48, 0x44, 0x52, 0, 0, 0, 2, 0, 0, 0, 1, 8, 2, 0, 0, 0] = 0x7B40E8DD ∧
      crcShifts 8 1 = 0x77073096 ∧ crcShifts 8 255 = 0x2D02EF8D := by decide +kernel
/-- K3's register trace. -/
theorem test_crc_update :
    (nextState? (exec (.crcUpdate 0x61) State.reset)).map (·.crc) = some 0x174841BC := by decide
theorem test_crc_init_final :
    (nextState? (exec .crcInit { State.reset with crc := 5 })).map (·.crc) = some 0xFFFFFFFF ∧
      (nextState? (exec .crcFinal { State.reset with crc := 0x174841BC })).map (·.ckOut) =
        some 0xE8B7BE43 := by decide
/-- K6's trace: (98, 98), then 62 gives (196, 294). -/
theorem test_adler_update :
    (nextState? (exec (.adlerUpdate 0x62) { State.reset with adlerA := 98, adlerB := 98 })).map
      (fun t => (t.adlerA, t.adlerB)) = some (196, 294) := by decide
theorem test_adler_init_final :
    (nextState? (exec .adlerInit { State.reset with adlerA := 7, adlerB := 9 })).map
        (fun t => (t.adlerA, t.adlerB)) = some (1, 0) ∧
      (nextState? (exec .adlerFinal { State.reset with adlerA := 295, adlerB := 589 })).map
        (·.ckOut) = some 0x024D0127 := by decide

/-- The 2 x 1 image of P1, decoded. -/
def decoded : State :=
  { State.reset with
    phase := .filter, ipos := 30, ilen := 30, hdrWidth := 2, hdrHeight := 1, hdrChannels := 3,
    pxtotal := 2, pxcnt := 2, pb := [(0, ⟨255, 0, 0, 255⟩), (1, ⟨0, 255, 0, 255⟩)] }

/-- L1, L2. -/
theorem test_filt_row :
    (nextState? (exec .filtRow decoded)).map (fun t => (t.fb, t.frow)) =
        some ([0, 255, 0, 0, 0, 255, 0], 1) ∧
      (nextState? (filtRowWith { Config.hw with filterMode := .adaptive } decoded)).map (·.fb) =
        some [0, 255, 0, 0, 0, 255, 0] := by decide
/-- R189's scores: None 2, Sub 3, Average 129. -/
theorem test_scores :
    [0, 1, 3].map (fun t => score (filteredRow t 3 [255, 0, 0, 0, 255, 0] [])) = [2, 3, 129] := by
  decide
/-- Section 2.7's table. -/
theorem test_paeth :
    paeth 10 20 15 = 15 ∧ paeth 100 101 100 = 101 ∧ paeth 0 0 255 = 0 ∧ paeth 0 1 1 = 0 ∧
      paeth 200 100 150 = 150 ∧ paeth 255 0 0 = 255 := by decide

/-- P1's payload, in DP. -/
def packing : State :=
  { decoded with phase := .deflate, frow := 1, fb := [0, 255, 0, 0, 0, 255, 0] }

theorem test_zlib_header :
    (nextState? (exec .zlibHeader packing)).map (·.zs) = some [0x78, 0x01] := by decide
/-- R206's example. -/
theorem test_stored_block :
    (nextState? (exec .deflateStored { packing with zs := [0x78, 0x01] })).map
      (fun t => (t.zs, t.blk)) =
      some ([0x78, 1, 1, 7, 0, 0xF8, 0xFF, 0, 0xFF, 0, 0, 0, 0xFF, 0], 1) := by decide
/-- Z4's first block, BLOCK_MAX = 4. -/
theorem test_stored_block_split :
    (nextState? (deflateStoredWith { Config.hw with blockMax := 4 } packing)).map (·.zs) =
      some [0, 4, 0, 0xFB, 0xFF, 0, 0xFF, 0, 0] := by decide
/-- R212's example. -/
theorem test_zlib_trailer :
    (nextState? (exec .zlibTrailer packing)).map (·.zs) = some [0x07, 0xFF, 0x01, 0xFF] := by
  decide
/-- R203: a field that crosses a byte boundary; 5 bits 10110 on top of 4 filled bits 0101. -/
theorem test_bits_put :
    (nextState? (exec (.bitsPut 0b10110 5) { packing with bitbuf := 0b0101, bitcnt := 4 })).map
      (fun t => (t.zs, t.bitbuf, t.bitcnt)) = some ([0b01100101], 1, 1) := by decide
theorem test_bits_align :
    (nextState? (exec .bitsAlign { packing with bitbuf := 1, bitcnt := 3 })).map
      (fun t => (t.zs, t.bitbuf, t.bitcnt)) = some ([1], 0, 0) := by decide

/-- P1's stream, in PF. -/
def framing : State :=
  { packing with
    phase := .frame, blk := 1,
    zs := [0x78, 1, 1, 7, 0, 0xF8, 0xFF, 0, 0xFF, 0, 0, 0, 0xFF, 0, 7, 0xFF, 1, 0xFF] }

theorem test_png_signature :
    (nextState? (exec .pngSignature framing)).map (fun t => (t.out, t.opos)) =
      some ([0x89, 0x50, 0x4E, 0x47, 0x0D, 0x0A, 0x1A, 0x0A], 8) := by decide
/-- F1. -/
theorem test_png_ihdr :
    (nextState? (exec .pngIhdr framing)).map (·.out) =
      some [0, 0, 0, 0x0D, 0x49, 0x48, 0x44, 0x52, 0, 0, 0, 2, 0, 0, 0, 1, 8, 2, 0, 0, 0, 0x7B, 0x40,
        0xE8, 0xDD] := by decide +kernel
/-- R241's example. -/
theorem test_png_idat :
    (nextState? (exec (.pngIdat 0) framing)).map (fun t => (t.out, t.opos)) =
      some ([0, 0, 0, 0x12, 0x49, 0x44, 0x41, 0x54, 0x78, 1, 1, 7, 0, 0xF8, 0xFF, 0, 0xFF, 0, 0, 0,
        0xFF, 0, 7, 0xFF, 1, 0xFF, 0xC5, 0x0E, 0xE2, 0x6A], 30) := by decide +kernel
/-- I3's last piece, IDAT_MAX = 8. -/
theorem test_png_idat_split :
    (nextState? (idatWith { Config.hw with idatMax := 8 } 2 framing)).map (·.out) =
      some [0, 0, 0, 2, 0x49, 0x44, 0x41, 0x54, 1, 0xFF, 0x48, 0xE2, 0x63, 0x76] := by decide +kernel
/-- R233's example, and IEND. -/
theorem test_png_chunk :
    (nextState? (exec (.pngChunk 0x49454E44 []) framing)).map (·.out) =
        some [0, 0, 0, 0, 0x49, 0x45, 0x4E, 0x44, 0xAE, 0x42, 0x60, 0x82] ∧
      (nextState? (exec .pngIend framing)).map (·.out) =
        some [0, 0, 0, 0, 0x49, 0x45, 0x4E, 0x44, 0xAE, 0x42, 0x60, 0x82] := by decide +kernel

/- Witnesses: for every statement of Certificates/Slice0/Obligations.lean with hypotheses, a state and operands that meet them, each clause at a boundary. -/

/-- A next state with a property, found by evaluation. -/
theorem next_of {x : Result} {P : State → Prop} [DecidablePred P]
    (h : (nextState? x).any (fun t => decide (P t)) = true) : ∃ t, x = .next t ∧ P t := by
  cases x <;> simp_all [nextState?]

/-- A next state, found by evaluation. -/
theorem next_some {x : Result} (h : (nextState? x).isSome = true) : ∃ t, x = .next t := by
  cases x <;> simp_all [nextState?]

/-- `Inv` from decidable parts, with the number of IDAT pieces already framed. -/
theorem inv_of {s : State} (j : Nat) (h1 : StorageInv s) (h2 : CounterInv s) (h3 : UnitInv s)
    (h4 : LatchInv s) (a : s.phase = .idle ∨ s.phase = .decHdr → HeaderClear s ∧ s.ipos = 0)
    (b : AfterHeader s → HeaderLegal s) (c : s.phase = .error → HeaderClear s ∨ HeaderLegal s)
    (d : s.phase = .decBody → s.pxcnt.toNat < s.pxtotal.toNat)
    (e : AfterHeader s ∧ s.phase ≠ .decBody → s.pxcnt = s.pxtotal) (h6 : FilterInv s)
    (h7 : DeflateInv s) (f : s.phase ≠ .frame ∧ s.phase ≠ .done → s.out = [])
    (g : s.phase = .frame → s.out.length = 0 ∨ s.out.length = 8 ∨
      j ≤ pieceCount Config.hw s.zs.length ∧
        s.out.length = 33 + 12 * j + min s.zs.length (j * Config.hw.idatMax))
    (h : s.phase = .done → s.out.length = pngLen Config.hw s.zs.length) : Inv s :=
  ⟨h1, h2, h3, h4, ⟨a, b, c, d, e⟩, h6, h7, f,
    fun p => (g p).imp_right (Or.imp_right fun q => ⟨j, q⟩), h⟩

/-- A 1 x 1 image of one RGB chunk, 26 bytes, in each phase. -/
def imgIdle : State := { State.reset with ilen := 26 }
def imgHdr : State :=
  { imgIdle with
    phase := .decHdr,
    inp := [(0, 0x71), (1, 0x6F), (2, 0x69), (3, 0x66), (4, 0), (5, 0), (6, 0), (7, 1), (8, 0),
      (9, 0), (10, 0), (11, 1), (12, 3), (13, 0)] }
def imgBody : State :=
  { imgIdle with
    phase := .decBody, ipos := 14, hdrWidth := 1, hdrHeight := 1, hdrChannels := 3, pxtotal := 1,
    inp := [(14, 0xFE), (15, 1), (16, 2), (17, 3)] }
def imgEnd : State :=
  { imgBody with
    phase := .decEnd, ipos := 18, pxcnt := 1, pb := [(0, ⟨1, 2, 3, 255⟩)],
    inp := [(18, 0), (19, 0), (20, 0), (21, 0), (22, 0), (23, 0), (24, 0), (25, 1)] }
def imgFilter : State := { imgEnd with phase := .filter, ipos := 26 }
def imgDeflate : State := { imgFilter with phase := .deflate, frow := 1, fb := [0, 1, 2, 3] }
def imgBlock : State := { imgDeflate with zs := [0x78, 1] }
def imgTrailer : State := { imgDeflate with blk := 1, zs := List.replicate 11 0 }
def imgFrame : State := { imgTrailer with phase := .frame, zs := List.replicate 15 0 }
def imgPiece (n : Nat) : State :=
  { imgFrame with out := List.replicate n 0, opos := BitVec.ofNat 64 n }
def imgDone : State := { imgPiece 72 with phase := .done }
def imgError : State :=
  { imgBody with phase := .error, errKind := .formatError, errCause := .truncatedChunk }

theorem inv_idle : Inv imgIdle := by apply inv_of 0 <;> decide
theorem inv_hdr : Inv imgHdr := by apply inv_of 0 <;> decide
theorem inv_body : Inv imgBody := by apply inv_of 0 <;> decide
theorem inv_end : Inv imgEnd := by apply inv_of 0 <;> decide
theorem inv_filter : Inv imgFilter := by apply inv_of 0 <;> decide
theorem inv_deflate : Inv imgDeflate := by apply inv_of 0 <;> decide
theorem inv_block : Inv imgBlock := by apply inv_of 0 <;> decide
theorem inv_trailer : Inv imgTrailer := by apply inv_of 0 <;> decide
theorem inv_frame : Inv imgFrame := by apply inv_of 0 <;> decide
theorem inv_signed : Inv (imgPiece 8) := by apply inv_of 0 <;> decide
theorem inv_piece : Inv (imgPiece 33) := by apply inv_of 0 <;> decide
theorem inv_iend : Inv (imgPiece 60) := by apply inv_of 1 <;> decide
theorem inv_done : Inv imgDone := by apply inv_of 0 <;> decide
theorem inv_error : Inv imgError := by apply inv_of 0 <;> decide

theorem witness_EncodedInstructionsDecodeBack :
    (∀ i ∈ [Instr.rgb 0 0 0, .rgba 255 255 255 255, .index 0, .index 63, .diff (-2) (-2) (-2),
        .diff 1 1 1, .luma (-32) (-8) (-8), .luma 31 7 7, .run 1, .run 62],
      WellFormed i ∧ codeSpace i = some .chunk) ∧
    WellFormed (.header 0x716F6966 0 0xFFFFFFFF 0 255) ∧
    codeSpace (.header 0x716F6966 0 0xFFFFFFFF 0 255) = some .header ∧
    WellFormed (.endMarker 1) ∧ codeSpace (.endMarker 1) = some .endMarker ∧
    codeSpace .start = some .ctrl ∧ codeSpace .sreset = some .ctrl := by decide

theorem witness_DecodedBytesEncodeBack :
    decode .chunk [0xFD, 7] = .ok (.run 62, [7]) ∧
      decode .endMarker [0, 0, 0, 0, 0, 0, 0, 1, 7] = .ok (.endMarker 1, [7]) ∧
      decode .header [1, 2, 3, 4, 5, 6, 7, 8, 9, 10, 11, 12, 13, 14, 7] =
        .ok (.header 0x01020304 0x05060708 0x090A0B0C 13 14, [7]) := by decide

/-- No byte is under two of the clauses: the ranges meet at 3F/40, 7F/80, BF/C0, FD/FE, FF. -/
theorem witness_LeadByteSelectsChunk :
    4 ≤ ([0, 0, 0, 0] : List Byte).length ∧
      (∀ b ∈ ([0x00, 0x3F] : List Byte), b.toNat ≤ 0x3F) ∧
      (∀ b ∈ ([0x40, 0x7F] : List Byte), 0x40 ≤ b.toNat ∧ b.toNat ≤ 0x7F) ∧
      (∀ b ∈ ([0x80, 0xBF] : List Byte), 0x80 ≤ b.toNat ∧ b.toNat ≤ 0xBF) ∧
      (∀ b ∈ ([0xC0, 0xFD] : List Byte), 0xC0 ≤ b.toNat ∧ b.toNat ≤ 0xFD) ∧
      (0xFE : Byte).toNat = 0xFE ∧ (0xFF : Byte).toNat = 0xFF := by decide

/-- The length that `ChunkLengthFromLeadByte` names, and a chunk cut one byte short of it. -/
theorem witness_ChunkLengthFromLeadByte :
    ([(0xFE, 4), (0xFF, 5), (0x80, 2), (0xBF, 2), (0xC0, 1), (0x7F, 1)] : List (Byte × Nat)).all
      (fun x => x.2 = (if x.1 = 0xFE then 4 else if x.1 = 0xFF then 5
        else if x.1.extractLsb' 6 2 = 2 then 2 else 1)) = true ∧
    ([0, 0, 0] : List Byte).length + 1 < 5 ∧ 5 ≤ ([0, 0, 0, 0] : List Byte).length + 1 := by decide

theorem witness_StepRunsTheDecodedInstruction :
    (imgHdr.host = [] ∧ imgHdr.phase = .decHdr ∧
      decode .header (inWindow imgHdr 0 14) = .ok (.header 0x716F6966 1 1 3 0, [])) ∧
    (imgEnd.host = [] ∧ imgEnd.phase = .decEnd ∧
      decode .endMarker (inWindow imgEnd imgEnd.ipos.toNat 8) = .ok (.endMarker 1, [])) ∧
    decodeCtrlValue 1 = some .start ∧ decodeCtrlValue 2 = some .sreset := by decide
/-- The second clause: a chunk that is the last 4 bytes of the stream and makes the last pixel. -/
theorem witness_StepRunsTheDecodedInstruction_chunk :
    imgBody.host = [] ∧ imgBody.phase = .decBody ∧ imgBody.pxcnt.toNat + 1 = imgBody.pxtotal.toNat ∧
      decode .chunk (inWindow { imgBody with ilen := 18 } 14 5) = .ok (.rgb 1 2 3, []) := by decide

theorem witness_EncodePhasesRunTheirOperations :
    imgFilter.phase = .filter ∧ (imgDeflate.phase = .deflate ∧ imgDeflate.zs = []) ∧
    (imgBlock.phase = .deflate ∧ imgBlock.zs ≠ [] ∧
      imgBlock.blk.toNat < blockCount Config.hw imgBlock.fb.length) ∧
    (imgTrailer.phase = .deflate ∧ imgTrailer.zs ≠ [] ∧
      blockCount Config.hw imgTrailer.fb.length ≤ imgTrailer.blk.toNat) ∧
    (imgFrame.phase = .frame ∧ imgFrame.opos = 0) ∧ (imgPiece 8).opos = 8 ∧
    (0 < pieceCount Config.hw (imgPiece 33).zs.length ∧
      (imgPiece 33).opos.toNat = 33 + 0 * (12 + Config.hw.idatMax)) ∧
    (imgPiece 60).opos.toNat =
      33 + 12 * pieceCount Config.hw (imgPiece 60).zs.length + (imgPiece 60).zs.length := by decide

theorem witness_PhaseChangesFollowTheTable :
    ∀ s ∈ [imgIdle, imgHdr, imgBody, imgEnd, imgFilter, imgDeflate, imgBlock, imgTrailer, imgFrame,
        imgPiece 8, imgPiece 33, imgPiece 60, imgDone, imgError],
      s.host = [] ∧ Inv s ∧ ∃ t, step s = .next t := by
  simp only [List.forall_mem_cons, List.not_mem_nil, false_imp_iff, implies_true, and_true]
  exact ⟨⟨rfl, inv_idle, next_some (by decide)⟩, ⟨rfl, inv_hdr, next_some (by decide)⟩,
    ⟨rfl, inv_body, next_some (by decide)⟩, ⟨rfl, inv_end, next_some (by decide)⟩,
    ⟨rfl, inv_filter, next_some (by decide)⟩, ⟨rfl, inv_deflate, next_some (by decide)⟩,
    ⟨rfl, inv_block, next_some (by decide)⟩, ⟨rfl, inv_trailer, next_some (by decide)⟩,
    ⟨rfl, inv_frame, next_some (by decide)⟩, ⟨rfl, inv_signed, next_some (by decide)⟩,
    ⟨rfl, inv_piece, next_some (by decide)⟩, ⟨rfl, inv_iend, next_some (by decide)⟩,
    ⟨rfl, inv_done, next_some (by decide)⟩, ⟨rfl, inv_error, next_some (by decide)⟩⟩
/-- The host's moves: START alone, SRESET alone, both, neither; a hardware reset; another register; bytes of IN. -/
theorem witness_PhaseChangesFollowTheTable_host (s : State) (h : s = imgDone ∨ s = imgError)
    (m : HostMove) (hm : m ∈ [.write .ctrl 1, .write .ctrl 2, .write .ctrl 3, .write .ctrl 4,
      .resetInput, .write .olen 1, .placeIn 0 [1], .poll, .waitEnd]) :
    Inv { s with host := [m] } ∧ ∃ t, step { s with host := [m] } = .next t := by
  refine ⟨by rcases h with rfl | rfl; exacts [inv_done, inv_error], next_some ?_⟩
  simp only [List.mem_cons, List.not_mem_nil, or_false] at hm
  rcases h with rfl | rfl <;> rcases hm with rfl | rfl | rfl | rfl | rfl | rfl | rfl | rfl | rfl <;> decide

theorem witness_MissingInputRaises :
    ({ imgHdr with ilen := 13 } : State).ilen.toNat < 14 ∧
      ({ imgBody with ilen := 14 } : State).ilen.toNat ≤ imgBody.ipos.toNat ∧
      imgBody.pxcnt.toNat < imgBody.pxtotal.toNat ∧
      (4 = chunkLen (inByte { imgBody with ilen := 17 } 14) ∧ ChunkCut 4 { imgBody with ilen := 17 }) ∧
      (4 = chunkLen (inByte { imgBody with ilen := 15 } 14) ∧ ChunkCut 4 { imgBody with ilen := 15 }) ∧
      ({ imgEnd with ilen := 25 } : State).ilen.toNat < imgEnd.ipos.toNat + 8 := by decide

theorem witness_RgbMakesAPixel : ChunkReady 4 (chunkAt 4) ∧ ChunkCut 4 (chunkAt 3) := by decide
theorem witness_RgbaMakesAPixel : ChunkReady 5 (chunkAt 5) ∧ ChunkCut 5 (chunkAt 4) := by decide
theorem witness_IndexReplaysASlot : ChunkReady 1 (chunkAt 1) := by decide
theorem witness_DiffMakesAPixel :
    WellFormed (.diff (-2) 1 0) ∧ ChunkReady 1 (chunkAt 1) := by decide
theorem witness_LumaMakesAPixel :
    WellFormed (.luma (-32) (-8) 7) ∧ ChunkReady 2 (chunkAt 2) ∧ ChunkCut 2 (chunkAt 1) := by decide
/-- Two pixels owed: RUN 2 fits, RUN 3 does not. -/
theorem witness_RunRepeatsThePreviousPixel :
    WellFormed (.run 2) ∧ WellFormed (.run 3) ∧ ChunkReady 1 (chunkAt 1) ∧
      2 ≤ (chunkAt 1).pxtotal.toNat - (chunkAt 1).pxcnt.toNat ∧
      (chunkAt 1).pxtotal.toNat - (chunkAt 1).pxcnt.toNat < 3 := by decide

theorem witness_OnlyFourChunkKindsWriteTheCache :
    ((∃ t, exec (.run 2) (chunkAt 1) = .next t) ∧ ¬ WritesCache (.run 2)) ∧
    ((∃ t, exec (.rgb 9 8 7) (chunkAt 3) = .next t ∧ t.pxcnt = (chunkAt 3).pxcnt) ∧
      (∃ t, exec (.rgb 9 8 7) (chunkAt 4) = .next t ∧ t.pxcnt ≠ (chunkAt 4).pxcnt) ∧
      WritesCache (.rgb 9 8 7)) :=
  ⟨⟨next_some (by decide), by simp [WritesCache]⟩,
    next_of (by decide), next_of (by decide), .inl ⟨_, _, _, rfl⟩⟩
theorem witness_CacheWriteIsSeenByTheNextIndex :
    WritesCache (.rgb 9 8 7) ∧
      ∃ t, exec (.rgb 9 8 7) (chunkAt 5) = .next t ∧
        (t.pxcnt ≠ (chunkAt 5).pxcnt ∧ ChunkReady 1 t) :=
  ⟨.inl ⟨_, _, _, rfl⟩, next_of (by decide)⟩

theorem witness_HeaderLatchesItsFields :
    14 ≤ (14 : Word64).toNat ∧ 0 < (1431655765 : Word32).toNat ∧ 0 < (1 : Word32).toNat ∧
      (1431655765 : Word32).toNat * (1 : Word32).toNat * (3 : Byte).toNat < 2 ^ 32 ∧
      (1073741823 : Word32).toNat * (1 : Word32).toNat * (4 : Byte).toNat < 2 ^ 32 := by decide
/-- The clauses of `HeaderRaisesItsFirstFailure` at their edges: 13 bytes and 14, magic off by one, 2^32 bytes and one pixel over a capacity. -/
theorem witness_HeaderRaisesItsFirstFailure :
    (13 : Word64).toNat < 14 ∧ (0x716F6967 : Word32) ≠ 0x716F6966 ∧
      ((2 : Byte) ≠ 3 ∧ (2 : Byte) ≠ 4) ∧ ((5 : Byte) ≠ 3 ∧ (5 : Byte) ≠ 4) ∧
      ((2 : Byte) ≠ 0 ∧ (2 : Byte) ≠ 1) ∧
      2 ^ 32 ≤ (1073741824 : Word32).toNat * (1 : Word32).toNat * (4 : Byte).toNat ∧
      (2 : Word32).toNat * (1 : Word32).toNat * (4 : Byte).toNat < 2 ^ 32 ∧
      ({ Config.hw with maxPixels := 1 } : Params).maxPixels <
        (2 : Word32).toNat * (1 : Word32).toNat := by decide
theorem witness_HeaderStepReadsBigEndian (f : Nat → Byte)
    (hf : f = fun k => ([0x71, 0x6F, 0x69, 0x66, 0, 0, 0, 1, 0, 0, 0, 1, 3, 0] : List Byte).getD k 0) :
    imgHdr.host = [] ∧ imgHdr.phase = .decHdr ∧ 14 ≤ imgHdr.ilen.toNat ∧
      (∀ k, k < 14 → Cells.read imgHdr.inp k = some (f k)) ∧
      f 0 = 0x71 ∧ f 1 = 0x6F ∧ f 2 = 0x69 ∧ f 3 = 0x66 ∧
      1 = (f 4).toNat * 2 ^ 24 + (f 5).toNat * 2 ^ 16 + (f 6).toNat * 2 ^ 8 + (f 7).toNat ∧
      1 = (f 8).toNat * 2 ^ 24 + (f 9).toNat * 2 ^ 16 + (f 10).toNat * 2 ^ 8 + (f 11).toNat ∧
      f 12 = 3 ∧ f 13 = 0 ∧ 1 * 1 * (f 12).toNat < 2 ^ 32 := by subst hf; decide
theorem witness_EndChecksTheMarker :
    endAt.ipos.toNat + 8 ≤ endAt.ilen.toNat ∧ endAt.ipos + 8 = endAt.ilen ∧
      (endAt.ipos + 8).toNat < ({ endAt with ilen := 31 } : State).ilen.toNat := by decide

theorem witness_CommandsReinitialise :
    busy endAt = true ∧ busy imgDone = false ∧ busy imgError = false := by decide
theorem witness_ResetValues :
    (∃ t, exec .sreset endAt = .next t) ∧
      (∃ t, step { endAt with host := [.resetInput] } = .next t) ∧
      busy imgError = false ∧ ∃ t, exec .start imgError = .next t :=
  ⟨next_some (by decide), next_some (by decide), rfl, next_some (by decide)⟩
theorem witness_RegisterWrites (v : Word64) (r : HostReg) :
    ({ imgDone with host := [.write r v] } : State).host = .write r v :: [] ∧
      (2 : Word64).getLsbD 1 = true ∧ ((1 : Word64).getLsbD 1 = false ∧ (1 : Word64).getLsbD 0 = true) ∧
      ((4 : Word64).getLsbD 1 = false ∧ (4 : Word64).getLsbD 0 = false) ∧
      HostReg.olen ≠ .ctrl ∧ HostReg.olen ≠ .ilen := ⟨rfl, by decide⟩
theorem witness_PixelsReadableOnlyWhenDone :
    Inv imgDone ∧ (readPixel imgDone 0).isSome = true ∧ (readPixel imgDone 1).isSome = false :=
  ⟨inv_done, by decide⟩
theorem witness_HostPlacesInput :
    busy imgEnd = true ∧ busy imgDone = false ∧
      (2 ^ 64 - 1) + ([7] : List Byte).length ≤ 2 ^ 64 := by decide

theorem inv_hdr_cut : Inv { imgHdr with ilen := 13 } := by apply inv_of 0 <;> decide
theorem inv_body_cut : Inv { imgBody with ilen := 17 } := by apply inv_of 0 <;> decide
theorem inv_end_cut : Inv { imgEnd with ilen := 25 } := by apply inv_of 0 <;> decide
theorem witness_ExceptionsArePrecise :
    (Inv { imgHdr with ilen := 13 } ∧
      ∃ t, step { imgHdr with ilen := 13 } = .next t ∧ t.phase = .error) ∧
    (Inv { imgBody with ilen := 17 } ∧
      ∃ t, step { imgBody with ilen := 17 } = .next t ∧ t.phase = .error) ∧
    (Inv { imgEnd with ilen := 25 } ∧
      ∃ t, step { imgEnd with ilen := 25 } = .next t ∧ t.phase = .error) :=
  ⟨⟨inv_hdr_cut, next_of (by decide)⟩, ⟨inv_body_cut, next_of (by decide)⟩,
    ⟨inv_end_cut, next_of (by decide)⟩⟩
theorem witness_ErrorIsLeftOnlyByStartOrReset :
    imgError.phase = .error ∧
      (∃ t, step { imgError with host := [.write .ctrl 1] } = .next t ∧ t.phase ≠ .error) ∧
      (∃ t, step { imgError with host := [.resetInput] } = .next t ∧ t.phase ≠ .error) ∧
      ∃ t, step { imgError with host := [.write .ctrl 4] } = .next t ∧ t.phase = .error :=
  ⟨rfl, next_of (by decide), next_of (by decide), next_of (by decide)⟩

theorem witness_SequencesOnlyGrow :
    (∃ t, step imgFilter = .next t ∧ t.fb ≠ imgFilter.fb) ∧
      (∃ t, step imgBlock = .next t ∧ t.zs ≠ imgBlock.zs) ∧
      ∃ t, step (imgPiece 60) = .next t ∧ t.out ≠ (imgPiece 60).out :=
  ⟨next_of (by decide), next_of (by decide), next_of (by decide)⟩
theorem witness_InputAndHeaderRegistersAreReadOnly :
    (∃ t, exec (.rgb 9 8 7) (chunkAt 4) = .next t) ∧
      (∃ t, exec .sreset (chunkAt 4) = .next t ∧ t.ilen ≠ (chunkAt 4).ilen) ∧
      ∀ m w h c cs, Instr.rgb 9 8 7 ≠ .header m w h c cs :=
  ⟨next_some (by decide), next_of (by decide), by simp⟩
theorem witness_PcAdvancesByTheItemLength :
    WellFormed (.rgb 9 8 7) ∧ WellFormed (.header 0x716F6966 1 1 3 0) ∧ headerAt.ipos = 0 ∧
      (∃ t, exec (.rgb 9 8 7) (chunkAt 4) = .next t) ∧
      (∃ t, exec (.rgb 9 8 7) (chunkAt 3) = .next t) ∧
      ∃ t, exec (.header 0x716F6966 1 1 3 0) headerAt = .next t :=
  ⟨by decide, by decide, rfl, next_some (by decide), next_some (by decide), next_some (by decide)⟩

theorem witness_CrcTableForm :
    ∃ T : Byte → Word32, ∀ n : Byte, T n = crcShifts 8 (n.zeroExtend 32) := ⟨_, fun _ => rfl⟩
theorem witness_AdlerModuloMayBeDeferred :
    (65520 : BitVec 16).toNat < 65521 ∧ (List.replicate 5552 (255 : Byte)).length ≤ 5552 :=
  ⟨by decide, List.length_replicate.le⟩

/-- Both channel counts; the first row of one, the last row of two. -/
def fourPixels : State :=
  { decoded with
    hdrHeight := 2, hdrChannels := 4, pxtotal := 4, pxcnt := 4, frow := 1,
    pb := [(0, ⟨255, 0, 0, 255⟩), (1, ⟨0, 255, 0, 255⟩), (2, ⟨1, 2, 3, 4⟩), (3, ⟨5, 6, 7, 8⟩)] }
theorem witness_FiltRowEmitsTheRawRow :
    (decoded.hdrChannels = 3 ∧ 0 < decoded.hdrWidth.toNat ∧
      decoded.frow.toNat < decoded.hdrHeight.toNat ∧ RowPresent decoded decoded.frow.toNat) ∧
    (fourPixels.hdrChannels = 4 ∧ 0 < fourPixels.hdrWidth.toNat ∧
      fourPixels.frow.toNat < fourPixels.hdrHeight.toNat ∧
      RowPresent fourPixels fourPixels.frow.toNat) := by decide
theorem witness_FilterChecksItsArguments :
    (State.reset.frow = 0 ∧ State.reset.hdrChannels ≠ 3 ∧ State.reset.hdrChannels ≠ 4) ∧
      ({ imgFilter with hdrWidth := 0 } : State).hdrWidth = 0 ∧ imgFilter.hdrChannels = 3 ∧
      ({ imgFilter with hdrHeight := 0 } : State).hdrHeight = 0 ∧ imgFilter.frow = 0 := by decide
theorem witness_AdaptiveTypeHasTheLeastScore :
    ∃ (t : Nat) (sc : Nat → Nat), t = selectType 3 [9, 9, 9, 9, 9, 9] [] ∧
      ∀ u, sc u = ((List.range 6).map fun i =>
        if pngFiltered u 3 [9, 9, 9, 9, 9, 9] [] i < 128 then pngFiltered u 3 [9, 9, 9, 9, 9, 9] [] i
        else 256 - pngFiltered u 3 [9, 9, 9, 9, 9, 9] [] i).sum := ⟨_, _, rfl, fun _ => rfl⟩
theorem witness_AdaptiveRowIsFiltered :
    (decoded.hdrChannels = 3 ∧ 0 < decoded.hdrWidth.toNat ∧ decoded.frow.toNat = 0 ∧
      0 < decoded.hdrHeight.toNat ∧ RowPresent decoded 0) ∧
    (0 < fourPixels.frow.toNat ∧ fourPixels.frow.toNat < fourPixels.hdrHeight.toNat ∧
      RowPresent fourPixels 1 ∧ RowPresent fourPixels (fourPixels.frow.toNat - 1)) := by decide
theorem witness_FiltersAreReversible : 0 < 1 := by decide

theorem witness_BitsPutAppendsBits :
    (1 ≤ 1 ∧ 1 ≤ 16) ∧ (1 ≤ 16 ∧ 16 ≤ 16) ∧
      (∀ j, packing.bitcnt.toNat ≤ j → packing.bitbuf.getLsbD j = false) ∧
      ∀ j, (7 : BitVec 3).toNat ≤ j → (0x7F : Byte).getLsbD j = false := by
  refine ⟨by decide, by decide, fun j _ => BitVec.getLsbD_zero, fun j h => ?_⟩
  rcases Nat.lt_or_ge j 8 with l | l
  · obtain rfl : j = 7 := by have : (7 : BitVec 3).toNat = 7 := rfl; omega
    decide
  · exact BitVec.getLsbD_of_ge _ _ l
theorem witness_BitsAlignPadsTheByte :
    packing.bitcnt = 0 ∧ 0 < ({ packing with bitcnt := 1 } : State).bitcnt.toNat := by decide
theorem witness_StoredBlockBytes :
    packing.bitbuf = 0 ∧ packing.bitcnt = 0 ∧
      1 = max 1 ((packing.fb.length + Config.hw.blockMax - 1) / Config.hw.blockMax) ∧
      packing.blk.toNat < 1 := by decide
theorem witness_PngChunkFramesItsData :
    ([] : List Byte).length ≤ 2 ^ 31 - 1 ∧
      (List.replicate (2 ^ 31 - 1) (0 : Byte)).length ≤ 2 ^ 31 - 1 :=
  ⟨by decide, List.length_replicate.le⟩
theorem witness_IhdrDescribesTheImage :
    imgFrame.hdrChannels = 3 ∧ ({ imgFrame with hdrChannels := 4 } : State).hdrChannels = 4 := by
  decide
theorem witness_IdatFramesItsPiece : 0 < pieceCount Config.hw framing.zs.length := by decide
theorem witness_SplitsLoseNothing :
    Config.hw.Legal ∧ ({ Config.hw with blockMax := 1, idatMax := 1, maxPixels := 1 } : Params).Legal ∧
      1 < blockCount { Config.hw with blockMax := 1 } 2 ∧
      1 < pieceCount { Config.hw with idatMax := 1 } 2 := by decide

/-- A run of one pixel as the first and only byte of IN. -/
def oneByte (rest : Memory) : State :=
  { State.reset with phase := .decBody, ilen := 1, pxtotal := 1, inp := (0, 0xC0) :: rest }

theorem witness_StepKeepsTheInvariant :
    Inv imgBody ∧ ∃ t, step imgBody = .next t := ⟨inv_body, next_some (by decide)⟩
theorem witness_NoOperationStops :
    Inv imgTrailer ∧ HostLooksOn imgTrailer ∧ HostLooksOn { imgTrailer with host := [.poll] } ∧
      HostLooksOn { imgTrailer with host := [.waitEnd, .resetInput] } :=
  ⟨inv_trailer, .inl rfl, .inr ⟨_, .inl rfl⟩, .inr ⟨_, .inr rfl⟩⟩
theorem witness_EveryOperationEnds :
    (Inv imgHdr ∧ imgHdr.host = [] ∧ busy imgHdr = true) ∧
      (Inv imgBody ∧ imgBody.host = [] ∧ busy imgBody = true ∧ AfterHeader imgBody) :=
  ⟨⟨inv_hdr, rfl, rfl⟩, inv_body, rfl, rfl, .inl rfl⟩
theorem witness_OnlyTheInputBytesMatter :
    (oneByte []).host = [] ∧
      oneByte [(1, 9)] = { oneByte [] with inp := (oneByte [(1, 9)]).inp, freeSeq := 0 } ∧
      (∀ a, a < (oneByte []).ilen.toNat → ∃ b, Cells.read (oneByte []).inp a = some b ∧
        Cells.read (oneByte [(1, 9)]).inp a = some b) ∧
      ∃ t, runSteps 1 (oneByte []) = .next t ∧ t.pxcnt = 1 := by
  refine ⟨rfl, rfl, fun a h => ?_, next_of (by decide)⟩
  obtain rfl : a = 0 := by have : (oneByte []).ilen.toNat = 1 := rfl; omega
  exact ⟨0xC0, rfl, rfl⟩
theorem witness_FilterPhaseWritesThePayload :
    Inv imgFilter ∧ imgFilter.host = [] ∧ imgFilter.phase = .filter ∧ imgFilter.frow = 0 :=
  ⟨inv_filter, rfl, rfl, rfl⟩
theorem witness_DeflatePhaseWritesTheStream :
    Inv imgDeflate ∧ imgDeflate.host = [] ∧ imgDeflate.phase = .deflate ∧ imgDeflate.zs = [] ∧
      imgDeflate.adlerA = 1 ∧ imgDeflate.adlerB = 0 := ⟨inv_deflate, rfl, rfl, rfl, rfl, rfl⟩
theorem witness_FramePhaseWritesTheFile :
    Inv imgFrame ∧ imgFrame.host = [] ∧ imgFrame.phase = .frame ∧ imgFrame.out = [] :=
  ⟨inv_frame, rfl, rfl, rfl⟩

end Sys2Proof.Tests
end

namespace Sys2Proof.Machine

/-! Noninterference (R17, R70): IN below ILEN is all that an operation reads of what the host alone writes. -/

/-- `s` with other input bytes and another operation counter (log 4). -/
def withInput (m : Memory) (q : Nat) (s : State) : State := { s with inp := m, freeSeq := q }

/-- What only the host's moves and commands write. -/
def hostSide (s : State) : List HostMove × Memory × Offset × Nat :=
  (s.host, s.inp, s.ilen, s.freeSeq)

/-- The block reads the same byte at every address below ILEN (R61). -/
def SameBytes (m : Memory) (q : Nat) (s : State) : Prop :=
  ∀ a, a < s.ilen.toNat → inByte (withInput m q s) a = inByte s a

/-- The simulation: a next state that `x` answers keeps the host's side of `s`, and `y` answers its image under `φ`. -/
def Mirrors (φ : State → State) (s : State) (x y : Result) : Prop :=
  ∀ t, x = .next t → hostSide t = hostSide s ∧ y = .next (φ t)

theorem inByte_of_read {s : State} {a : Nat} {b : Byte} (h : Cells.read s.inp a = some b) :
    inByte s a = b := by
  simp only [inByte, h]

theorem SameBytes.of_read {m : Memory} {q : Nat} {s : State}
    (h : ∀ a, a < s.ilen.toNat → ∃ b, Cells.read s.inp a = some b ∧ Cells.read m a = some b) :
    SameBytes m q s := by
  intro a ha
  obtain ⟨b, hs, hm⟩ := h a ha
  rw [inByte_of_read hs]
  exact inByte_of_read hm

theorem SameBytes.congr {m : Memory} {q : Nat} {s t : State} (h : SameBytes m q s)
    (e : hostSide t = hostSide s) : SameBytes m q t := by
  simp only [hostSide, Prod.mk.injEq] at e
  obtain ⟨-, hinp, hilen, hseq⟩ := e
  intro a ha
  have hread := h a (hilen ▸ ha)
  simpa only [inByte, withInput, hinp, hseq] using hread

theorem inWindow_withInput {m : Memory} {q : Nat} {s : State} (h : SameBytes m q s) (a n : Nat) :
    inWindow (withInput m q s) a n = inWindow s a n := by
  refine List.map_congr_left fun k hk => h (a + k) ?_
  have hk : k < min n (s.ilen.toNat - a) := List.mem_range.mp hk
  omega

section Combinators
variable {φ : State → State} {s u : State} {x y x' y' : Result}

theorem Mirrors.next (h : hostSide u = hostSide s) : Mirrors φ s (.next u) (.next (φ u)) := by
  rintro t ⟨⟩
  exact ⟨h, rfl⟩

theorem mirrors_next_iff {v : State} :
    Mirrors φ s (.next u) (.next v) ↔ hostSide u = hostSide s ∧ v = φ u := by
  constructor
  · intro h
    obtain ⟨hside, hv⟩ := h u rfl
    exact ⟨hside, Host.Outcome.next.inj hv⟩
  · rintro ⟨hside, rfl⟩
    exact .next hside

theorem Mirrors.fault {r : Fault} : Mirrors φ s (.fault r) y := nofun

theorem Mirrors.refused {r : Refusal} : Mirrors φ s (.refused r) y := nofun

theorem Mirrors.ite {c : Prop} [Decidable c] (h : Mirrors φ s x y) (h' : Mirrors φ s x' y') :
    Mirrors φ s (if c then x else x') (if c then y else y') := by
  split_ifs
  · exact h
  · exact h'

theorem Mirrors.nextIte {c : Prop} [Decidable c] {v u' v' : State}
    (h : Mirrors φ s (.next u) (.next v)) (h' : Mirrors φ s (.next u') (.next v')) :
    Mirrors φ s (.next (if c then u else u')) (.next (if c then v else v')) := by
  rw [apply_ite Host.Outcome.next, apply_ite Host.Outcome.next]
  exact h.ite h'

theorem Mirrors.of_hostSide (h : Mirrors φ u x y) (e : hostSide u = hostSide s) : Mirrors φ s x y :=
  fun t ht => ⟨(h t ht).1.trans e, (h t ht).2⟩

theorem Mirrors.andThen {f g : State → Result} (hx : Mirrors φ s x y)
    (hf : ∀ u, Mirrors φ u (f u) (g (φ u))) : Mirrors φ s (andThen x f) (andThen y g) := by
  intro t ht
  obtain ⟨u, hu, hfu⟩ := andThen_eq_next.mp ht
  obtain ⟨hsu, rfl⟩ := hx u hu
  obtain ⟨hut, hg⟩ := hf u t hfu
  exact ⟨hut.trans hsu, hg⟩

end Combinators

/-! One lemma per shared operation; the instructions are built from these. -/

section Operations
variable {m : Memory} {q : Nat} (s : State)

theorem mirrors_produce (p : Pixel) :
    Mirrors (withInput m q) s (produce p s) (produce p (withInput m q s)) :=
  .ite (.next rfl) .fault

theorem mirrors_produceMany (p : Pixel) (n : Nat) :
    Mirrors (withInput m q) s (produceMany p n s) (produceMany p n (withInput m q s)) := by
  induction n generalizing s with
  | zero => exact .next rfl
  | succ n ih => exact (mirrors_produce s p).andThen ih

theorem mirrors_withChunk (n : Nat) {f : State → Result}
    (hf : Mirrors (withInput m q) s (f s) (f (withInput m q s))) :
    Mirrors (withInput m q) s (withChunk n s f) (withChunk n (withInput m q s) f) :=
  .ite (.next rfl) (.ite (.next rfl) hf)

theorem mirrors_putPixel (n : Nat) (p : Pixel) :
    Mirrors (withInput m q) s (putPixel n p s) (putPixel n p (withInput m q s)) :=
  (mirrors_produce s p).andThen fun _ => .next rfl

theorem mirrors_frameChunk (ty : Word32) (d : List Byte) :
    Mirrors (withInput m q) s (frameChunk ty d s) (frameChunk ty d (withInput m q s)) :=
  .ite .refused (.next rfl)

theorem mirrors_execIndex (slot : Fin 64) :
    Mirrors (withInput m q) s (execIndex slot s) (execIndex slot (withInput m q s)) := by
  refine mirrors_withChunk s 1 ?_
  exact (mirrors_produce s (cacheRead s slot)).andThen fun _ => .next rfl

theorem mirrors_execRun (count : Nat) :
    Mirrors (withInput m q) s (execRun count s) (execRun count (withInput m q s)) := by
  refine mirrors_withChunk s 1 ?_
  exact .ite (.next rfl) ((mirrors_produceMany s s.prev count).andThen fun _ => .next rfl)

theorem mirrors_execPngIhdr :
    Mirrors (withInput m q) s (execPngIhdr s) (execPngIhdr (withInput m q s)) := by
  unfold execPngIhdr
  rw [show (withInput m q s).hdrChannels = s.hdrChannels from rfl]
  cases colorType s.hdrChannels with
  | none => exact .refused
  | some color => exact mirrors_frameChunk s _ _

theorem mirrors_execHeader (magic w h : Word32) (c cs : Byte) :
    Mirrors (withInput m q) s (execHeader magic w h c cs s)
      (execHeader magic w h c cs (withInput m q s)) :=
  have latch : Mirrors (withInput m q) s (.next (latchHeader Config.hw w h c cs s))
      (.next (latchHeader Config.hw w h c cs (withInput m q s))) :=
    .nextIte (.next rfl) (.nextIte (.next rfl) (.next rfl))
  .nextIte (.next rfl) (.nextIte (.next rfl) (.nextIte (.next rfl) (.nextIte (.next rfl)
    (.nextIte (.next rfl) (.nextIte (.next rfl) latch)))))

theorem raiseShortMarker_withInput (hm : SameBytes m q s) :
    raiseShortMarker (withInput m q s) = withInput m q (raiseShortMarker s) := by
  unfold raiseShortMarker
  rw [inWindow_withInput hm]
  rfl

/-- END looks at IN itself only where the marker is cut short (R144). -/
theorem mirrors_execEndMarker (hm : SameBytes m q s) (marker : Word64) :
    Mirrors (withInput m q) s (execEndMarker marker s)
      (execEndMarker marker (withInput m q s)) := by
  have short : Mirrors (withInput m q) s (.next (raiseShortMarker s))
      (.next (raiseShortMarker (withInput m q s))) := by
    rw [raiseShortMarker_withInput s hm]
    exact .next rfl
  exact .nextIte short (.nextIte (.next rfl) (.nextIte (.next rfl) (.next rfl)))

theorem pbReadMany_withInput (a n : Nat) : pbReadMany (withInput m q s) a n = pbReadMany s a n := by
  induction n generalizing a with
  | zero => rfl
  | succ n ih =>
    simp only [pbReadMany, ih]
    rfl

theorem rawRow_withInput (y : Nat) : rawRow (withInput m q s) y = rawRow s y := by
  unfold rawRow
  rw [pbReadMany_withInput]
  rfl

theorem mirrors_emitRow (cfg : Params) :
    Mirrors (withInput m q) s (emitRow cfg s) (emitRow cfg (withInput m q s)) := by
  have above : ∀ y, rowAbove cfg.filterMode (withInput m q s) y = rowAbove cfg.filterMode s y :=
    fun y => by simp only [rowAbove, rawRow_withInput]
  unfold emitRow
  rw [rawRow_withInput, above, show (withInput m q s).frow = s.frow from rfl]
  refine .ite .refused ?_
  cases rawRow s s.frow.toNat with
  | none => exact .refused
  | some raw =>
    cases rowAbove cfg.filterMode s s.frow.toNat with
    | none => exact .refused
    | some above => exact .next rfl

/-- FILT.ROW with its two raises in line (R181). -/
theorem filtRowWith_eq (cfg : Params) :
    filtRowWith cfg s =
      if s.frow = 0 then
        if s.hdrChannels ≠ 3 ∧ s.hdrChannels ≠ 4 then
          .next (raise .encBadChannels 0 3 (s.hdrChannels.zeroExtend 64) s)
        else if s.hdrWidth = 0 ∨ s.hdrHeight = 0 then .next (raise .encZeroDim 0 1 0 s)
        else emitRow cfg s
      else emitRow cfg s := by
  unfold filtRowWith encodeCheck
  split_ifs <;> rfl

theorem mirrors_filtRowWith (cfg : Params) :
    Mirrors (withInput m q) s (filtRowWith cfg s) (filtRowWith cfg (withInput m q s)) := by
  rw [filtRowWith_eq, filtRowWith_eq]
  exact .ite (.ite (.next rfl) (.ite (.next rfl) (mirrors_emitRow s cfg))) (mirrors_emitRow s cfg)

theorem mirrors_putBit (b : Bool) :
    Mirrors (withInput m q) s (.next (putBit b s)) (.next (putBit b (withInput m q s))) :=
  .nextIte (.next rfl) (.next rfl)

theorem mirrors_bitsPut (v : BitVec 16) (k : Nat) :
    Mirrors (withInput m q) s (.next (bitsPut v k s)) (.next (bitsPut v k (withInput m q s))) := by
  unfold bitsPut
  generalize (List.range k).map v.getLsbD = l
  induction l generalizing s with
  | nil => exact .next rfl
  | cons b l ih =>
    obtain ⟨hside, hput⟩ := mirrors_next_iff.mp (mirrors_putBit (m := m) (q := q) s b)
    simp only [List.foldl_cons, hput]
    exact (ih (putBit b s)).of_hostSide hside

theorem mirrors_bitsAlign :
    Mirrors (withInput m q) s (.next (bitsAlign s)) (.next (bitsAlign (withInput m q s))) :=
  .nextIte (.next rfl) (.next rfl)

theorem mirrors_storedBlock (final : Bool) (piece : List Byte) :
    Mirrors (withInput m q) s (.next (storedBlock final piece s))
      (.next (storedBlock final piece (withInput m q s))) := by
  have put (u : State) (v : BitVec 16) (k : Nat) :=
    mirrors_next_iff.mp (mirrors_bitsPut (m := m) (q := q) u v k)
  have align (u : State) := mirrors_next_iff.mp (mirrors_bitsAlign (m := m) (q := q) u)
  have side :
      hostSide (bitsAlign (bitsPut 0 2 (bitsPut ((BitVec.ofBool final).zeroExtend 16) 1 s))) =
        hostSide s := by
    rw [(align _).1, (put _ _ _).1, (put _ _ _).1]
  simp only [storedBlock, fun u v k => (put u v k).2, fun u => (align u).2]
  generalize bitsAlign (bitsPut 0 2 (bitsPut ((BitVec.ofBool final).zeroExtend 16) 1 s)) = u
    at side ⊢
  exact .next side

/-- What an instruction other than a command does depends on IN only below ILEN; and it leaves the host's side alone. -/
theorem mirrors_exec (hm : SameBytes m q s) (i : Instr) (hi : codeSpace i ≠ some .ctrl) :
    Mirrors (withInput m q) s (exec i s) (exec i (withInput m q s)) := by
  cases i with
  | rgb => exact mirrors_withChunk s 4 (mirrors_putPixel s 4 _)
  | rgba => exact mirrors_withChunk s 5 (mirrors_putPixel s 5 _)
  | index => exact mirrors_execIndex s _
  | diff => exact mirrors_withChunk s 1 (mirrors_putPixel s 1 _)
  | luma => exact mirrors_withChunk s 2 (mirrors_putPixel s 2 _)
  | run => exact mirrors_execRun s _
  | header => exact mirrors_execHeader s _ _ _ _ _
  | endMarker => exact mirrors_execEndMarker s hm _
  | start => exact absurd rfl hi
  | sreset => exact absurd rfl hi
  | filtRow => exact mirrors_filtRowWith s _
  | bitsPut => exact mirrors_bitsPut s _ _
  | bitsAlign => exact mirrors_bitsAlign s
  | deflateStored => exact .ite .refused (mirrors_storedBlock s _ _)
  | pngChunk => exact mirrors_frameChunk s _ _
  | pngIhdr => exact mirrors_execPngIhdr s
  | pngIdat => exact .ite .refused (mirrors_frameChunk s _ _)
  | pngIend => exact mirrors_frameChunk s typeIend []
  | _ => exact .next rfl

end Operations

/-! One step, now with other moves to come as well. -/

/-- The decoder of a code space answers instructions of that code space only. -/
theorem decode_codeSpace {sp : CodeSpace} {bytes rest : List Byte} {i : Instr}
    (h : decode sp bytes = .ok (i, rest)) : codeSpace i = some sp := by
  cases sp with
  | header =>
    change decodeHeader bytes = _ at h
    unfold decodeHeader at h
    split at h <;> cases h
    rfl
  | chunk =>
    cases bytes with
    | nil => cases h
    | cons b1 t =>
      change decodeLead b1 t = _ at h
      unfold decodeLead decodeRgb decodeRgba decodeLuma at h
      split_ifs at h with hrgb hrgba hindex hdiff hluma
      · split at h <;> cases h
        rfl
      · split at h <;> cases h
        rfl
      · cases h
        rfl
      · cases h
        rfl
      · split at h <;> cases h
        rfl
      · cases h
        rfl
  | endMarker =>
    change decodeEnd bytes = _ at h
    unfold decodeEnd at h
    split at h <;> cases h
    rfl
  | ctrl =>
    cases bytes with
    | nil => cases h
    | cons b t =>
      change decodeCtrl (b :: t) = _ at h
      simp only [decodeCtrl, decodeCtrlValue] at h
      split_ifs at h <;> cases h <;> rfl

/-- `s` with other moves to come, other input bytes and another operation counter. -/
def withSurroundings (h : List HostMove) (m : Memory) (q : Nat) (s : State) : State :=
  setHost h (withInput m q s)

/-- What a step does with what the sequencer issued. -/
def perform (x : Issue) (s : State) : Result :=
  match x with
  | .run i => andThen (exec i s) fun t => .next (advance i t)
  | .settle t => .next t

theorem operate_eq_perform (s : State) : operate s = perform (issue s) s := rfl

section Step
variable {h : List HostMove} {m : Memory} {q : Nat} {s : State}

theorem mirrors_advance (i : Instr) (s : State) :
    Mirrors (withSurroundings h m q) s (.next (advance i s))
      (.next (advance i (withSurroundings h m q s))) := by
  unfold advance
  rw [show (withSurroundings h m q s).phase = s.phase from rfl]
  cases s.phase with
  | decBody => exact .nextIte (.next rfl) (.next rfl)
  | filter => exact .nextIte (.next rfl) (.next rfl)
  | deflate => exact .nextIte (.next rfl) (.next rfl)
  | frame => exact .nextIte (.next rfl) (.next rfl)
  | _ => exact .next rfl

theorem mirrors_perform_run (hm : SameBytes m q s) (i : Instr) (hi : codeSpace i ≠ some .ctrl) :
    Mirrors (withSurroundings h m q) s (perform (.run i) s)
      (perform (.run i) (withSurroundings h m q s)) := by
  have run : Mirrors (withSurroundings h m q) s (exec i s)
      (exec i (withSurroundings h m q s)) := by
    intro t ht
    obtain ⟨hside, hexec⟩ := mirrors_exec s hm i hi t ht
    refine ⟨hside, ?_⟩
    rw [withSurroundings, exec_setHost, hexec]
    rfl
  exact run.andThen (mirrors_advance i)

theorem mirrors_perform_fetch (hm : SameBytes m q s) (sp : CodeSpace) (hsp : sp ≠ .ctrl) (a : Nat) :
    Mirrors (withSurroundings h m q) s (perform (fetch sp a s) s)
      (perform (fetch sp a (withSurroundings h m q s)) (withSurroundings h m q s)) := by
  have window (n : Nat) : inWindow (withSurroundings h m q s) a n = inWindow s a n :=
    inWindow_withInput hm a n
  unfold fetch
  rw [window]
  cases hd : decode sp (inWindow s a (spaceBytes sp)) with
  | ok item =>
    refine mirrors_perform_run hm item.1 ?_
    rw [decode_codeSpace hd]
    simpa using hsp
  | error r =>
    cases r with
    | truncatedMarker =>
      have hraise : raiseShortMarker (withSurroundings h m q s) =
          withSurroundings h m q (raiseShortMarker s) :=
        congrArg (setHost h) (raiseShortMarker_withInput s hm)
      change Mirrors _ s (.next (raiseShortMarker s)) (.next (raiseShortMarker _))
      rw [hraise]
      exact .next rfl
    | _ => exact .next rfl

/-- One operation reads only IN below ILEN of what the host alone writes, and writes nothing of it (R17, R70). -/
theorem mirrors_operate (hm : SameBytes m q s) :
    Mirrors (withSurroundings h m q) s (operate s) (operate (withSurroundings h m q s)) := by
  simp only [operate_eq_perform, issue, show (withSurroundings h m q s).phase = s.phase from rfl]
  cases s.phase with
  | decHdr => exact mirrors_perform_fetch hm .header nofun 0
  | decBody =>
    rw [apply_ite (perform · s), apply_ite (perform · (withSurroundings h m q s))]
    exact .ite (mirrors_perform_fetch hm .chunk nofun s.ipos.toNat) (.next rfl)
  | decEnd => exact mirrors_perform_fetch hm .endMarker nofun s.ipos.toNat
  | filter => exact mirrors_perform_run hm .filtRow nofun
  | deflate =>
    refine mirrors_perform_run hm (nextDeflate Config.hw s) ?_
    unfold nextDeflate
    split_ifs <;> nofun
  | frame =>
    refine mirrors_perform_run hm (nextFrame Config.hw s) ?_
    unfold nextFrame
    split_ifs <;> nofun
  | _ => exact .next rfl

theorem step_eq_operate (hs : s.host = []) : step s = operate s := by
  unfold step
  rw [hs]

theorem runSteps_succ (k : Nat) (s : State) :
    runSteps (k + 1) s = andThen (step s) (runSteps k) := by
  cases h : step s <;>
  · have h' : core.step s = _ := h
    simp only [runSteps, Host.Core.run, h']
    rfl

theorem mirrors_runSteps (k : Nat) (hs : s.host = []) (hm : SameBytes m q s) :
    Mirrors (withSurroundings [] m q) s (runSteps k s) (runSteps k (withSurroundings [] m q s)) := by
  induction k generalizing s with
  | zero => exact .next rfl
  | succ k ih =>
    intro t hrun
    rw [runSteps_succ] at hrun ⊢
    obtain ⟨u, hstep, hrest⟩ := andThen_eq_next.mp hrun
    rw [step_eq_operate hs] at hstep
    obtain ⟨hside, hstep'⟩ := mirrors_operate (h := []) hm u hstep
    have hu : u.host = [] := (congrArg Prod.fst hside).trans hs
    obtain ⟨hside', hrest'⟩ := ih hu (hm.congr hside) t hrest
    refine ⟨hside'.trans hside, ?_⟩
    rw [step_eq_operate rfl, hstep', andThen_next, hrest']

end Step

/-- Settles O57: the runs stay images of each other, step by step; and the moves to come are one more thing that no operation reads. -/
theorem onlyTheInputBytesMatter : Obligations.OnlyTheInputBytesMatter := by
  unfold Obligations.OnlyTheInputBytesMatter
  refine ⟨fun k s s' t hs hs' hread hrun => ?_, fun s t moves hs hstep => ?_⟩
  · have hm : SameBytes s'.inp s'.freeSeq s := .of_read hread
    obtain ⟨hside, hrun'⟩ := mirrors_runSteps k hs hm t hrun
    have hstart : withSurroundings [] s'.inp s'.freeSeq s = s' := by
      rw [withSurroundings, ← hs]
      exact hs'.symm
    have hend : withSurroundings [] s'.inp s'.freeSeq t =
        { t with inp := s'.inp, freeSeq := s'.freeSeq } := by
      have hhost : t.host = s.host := congrArg Prod.fst hside
      rw [withSurroundings, ← hs, ← hhost]
      rfl
    rw [← hend, ← hrun', hstart]
  · rw [step_eq_operate hs] at hstep
    have hm : SameBytes s.inp s.freeSeq s := fun _ _ => rfl
    obtain ⟨hside, hpoll⟩ := mirrors_operate (h := moves) hm t hstep
    simp only [hostSide, Prod.mk.injEq] at hside
    obtain ⟨-, hinp, -, hseq⟩ := hside
    have hend : withSurroundings moves s.inp s.freeSeq t = { t with host := moves } := by
      rw [← hinp, ← hseq]
      rfl
    rw [← hend]
    exact hpoll

end Sys2Proof.Machine

namespace Sys2Proof.Machine

/-! The host's registers: what they read (R33, R35), what a write does (R36), and their values after a reset or START (R39). -/

/-- STATUS is a function of the phase and never overflows its byte (R35). -/
theorem readReg_status_toNat (s : State) :
    (readReg s .status).toNat =
      16 * phaseCode s.phase + 4 * (errorFlag s).toNat + 2 * (doneFlag s).toNat + (busy s).toNat := by
  simp only [readReg, statusWord, errorFlag, doneFlag, busy]
  cases s.phase <;> rfl

theorem flags_toNat_le_one (s : State) :
    (busy s).toNat + (doneFlag s).toNat + (errorFlag s).toNat ≤ 1 := by
  simp only [errorFlag, doneFlag, busy]
  cases s.phase <;> decide

theorem doneFlag_eq_true_iff {s : State} : doneFlag s = true ↔ s.phase = .done := decide_eq_true_iff

theorem errorFlag_eq_true_iff {s : State} : errorFlag s = true ↔ s.phase = .error := decide_eq_true_iff

theorem busy_eq_false_iff {s : State} :
    busy s = false ↔ s.phase = .idle ∨ s.phase = .done ∨ s.phase = .error := by
  unfold busy
  cases s.phase <;> decide

/-- Settles O25: STATUS and the code tables by the phase, kind and cause; the rest are the registers, zero-extended. -/
theorem registerReads : Obligations.RegisterReads := by
  unfold Obligations.RegisterReads
  intro s
  have hstatus := readReg_status_toNat s
  have hflags := flags_toNat_le_one s
  have zext {n : Nat} (v : BitVec n) (hn : n ≤ 64) : (v.zeroExtend 64).toNat = v.toNat :=
    BitVec.toNat_setWidth_of_le hn
  refine ⟨?_, by omega, hflags, doneFlag_eq_true_iff, errorFlag_eq_true_iff, busy_eq_false_iff, rfl,
    rfl, zext _ (by decide), zext _ (by decide), zext _ (by decide), zext _ (by decide), ?_, ?_, rfl,
    rfl, rfl, zext _ (by decide), rfl⟩
  · rw [hstatus]
    simp only [errorFlag, doneFlag, busy]
    cases s.phase <;> decide
  · simp only [readReg]
    cases s.errKind <;> decide
  · simp only [readReg]
    cases s.errCause <;> decide

theorem step_cons {s : State} {m : HostMove} {moves : List HostMove} (h : s.host = m :: moves) :
    step s = hostMove m (setHost moves s) := by
  unfold step
  rw [h]
  rfl

/-- A write of CTRL runs the command in it, if there is one (R36). -/
theorem hostMove_write_ctrl (v : Word64) (s : State) :
    hostMove (.write .ctrl v) s =
      if v.getLsbD 1 then exec .sreset s else if v.getLsbD 0 then exec .start s else .next s := by
  simp only [hostMove, decodeCtrlValue]
  split_ifs <;> rfl

theorem writeIlen_eq (v : Word64) (s : State) :
    writeIlen v s = { s with ilen := if busy s then s.ilen else v } := by
  unfold writeIlen
  split_ifs <;> rfl

/-- A write of a register other than CTRL and ILEN does nothing (R35). -/
theorem hostMove_write_readOnly {r : HostReg} (hctrl : r ≠ .ctrl) (hilen : r ≠ .ilen) (v : Word64)
    (s : State) : hostMove (.write r v) s = .next s := by
  cases r with
  | ctrl => exact absurd rfl hctrl
  | ilen => exact absurd rfl hilen
  | _ => rfl

theorem exec_start_eq (s : State) :
    exec .start s = if busy s then .next s else .next (startEffect s) := rfl

/-- Settles O24: the value of CTRL decides the command (R36), and BUSY whether ILEN takes the value (R35). -/
theorem registerWrites : Obligations.RegisterWrites := by
  unfold Obligations.RegisterWrites
  intro s r v moves hhost
  rw [step_cons hhost]
  refine ⟨?_, ?_, fun hctrl hilen => hostMove_write_readOnly hctrl hilen v _⟩
  · rintro rfl
    rw [hostMove_write_ctrl]
    refine ⟨fun h1 => ?_, fun h1 h0 => ?_, fun h1 h0 => ?_⟩
    · rw [if_pos h1]
      rfl
    · rw [if_neg (ne_true_of_eq_false h1), if_pos h0, exec_start_eq]
      change (if busy s then _ else _) = if busy s then _ else if busy s then _ else _
      split_ifs <;> rfl
    · rw [if_neg (ne_true_of_eq_false h1), if_neg (ne_true_of_eq_false h0)]
      rfl
  · rintro rfl
    simp only [hostMove, writeIlen_eq]
    rfl

/-- The state of R39 in phase `p`, beside what is the host's: IN, ILEN, the moves to come and the operation counter. -/
def IsFresh (p : Phase) (t : State) : Prop :=
  t = { State.reset with
        host := t.host, inp := t.inp, ilen := t.ilen, freeSeq := t.freeSeq, phase := p }

theorem isFresh_reset : IsFresh .idle State.reset := rfl

theorem isFresh_resetEffect (s : State) : IsFresh .idle (resetEffect s) := rfl

theorem isFresh_startEffect (s : State) : IsFresh .decHdr (startEffect s) := rfl

/-- Power-on, SRESET and the hardware reset input leave the first column of R39. -/
theorem isFresh_idle_of_reset {s t : State}
    (h : t = State.reset ∨ exec .sreset s = .next t ∨
      (∃ moves, s.host = .resetInput :: moves ∧ step s = .next t)) :
    IsFresh .idle t ∧ t.ilen = 0 := by
  rcases h with rfl | h | ⟨moves, hhost, h⟩
  · exact ⟨isFresh_reset, rfl⟩
  · cases h
    exact ⟨isFresh_resetEffect s, rfl⟩
  · rw [step_cons hhost] at h
    cases h
    exact ⟨isFresh_resetEffect _, rfl⟩

/-- An accepted START leaves the second column of R39 and keeps ILEN. -/
theorem isFresh_decHdr_of_start {s t : State} (hbusy : busy s = false)
    (h : exec .start s = .next t) : IsFresh .decHdr t ∧ t.ilen = s.ilen := by
  rw [exec_start_eq, hbusy] at h
  cases h
  exact ⟨isFresh_startEffect s, rfl⟩

/-- Settles O23: both columns of R39 are one fresh state, in IDLE with ILEN 0 or in DEC_HDR with ILEN kept. -/
theorem resetValues : Obligations.ResetValues := by
  unfold Obligations.ResetValues
  intro s t
  refine ⟨fun h => ?_, fun h => ?_, fun h => ?_⟩
  · obtain ⟨hfresh, hilen⟩ := isFresh_idle_of_reset h
    rw [IsFresh] at hfresh
    exact ⟨by rw [hfresh], by rw [hfresh]; rfl, hilen⟩
  · obtain ⟨hfresh, hilen⟩ := isFresh_decHdr_of_start h.1 h.2
    rw [IsFresh] at hfresh
    exact ⟨by rw [hfresh], by rw [hfresh]; rfl, hilen⟩
  · obtain ⟨p, hp, hfresh⟩ : ∃ p, (p = .idle ∨ p = .decHdr) ∧ IsFresh p t := by
      rcases h with h | h | h | h
      · exact ⟨_, .inl rfl, (isFresh_idle_of_reset (s := s) (.inl h)).1⟩
      · exact ⟨_, .inl rfl, (isFresh_idle_of_reset (.inr (.inl h))).1⟩
      · exact ⟨_, .inl rfl, (isFresh_idle_of_reset (.inr (.inr h))).1⟩
      · exact ⟨_, .inr rfl, (isFresh_decHdr_of_start h.1 h.2).1⟩
    rw [IsFresh] at hfresh
    rw [hfresh]
    have hflags : doneFlag { t with phase := p } = false ∧ errorFlag { t with phase := p } = false := by
      rcases hp with rfl | rfl <;> exact ⟨rfl, rfl⟩
    refine ⟨hflags.1, hflags.2, rfl, rfl, rfl, rfl, rfl, rfl, rfl, rfl, fun i => ?_, fun a => rfl, rfl, rfl, rfl,
      rfl, rfl, rfl, rfl, rfl, rfl, rfl, rfl, rfl, rfl, rfl, rfl, rfl⟩
    exact Vector.getElem_replicate i.isLt

/-! What an instruction that answers a next state can have done, by its code space. -/

/-- `t` is `s` after taking an exception with a cause that some rule raises (R284, R286). -/
def RaisedFrom (s t : State) : Prop :=
  ∃ k o e f, t = raise k o e f s ∧ k ≠ .none ∧ k ≠ .reservedTag

/-- PB and the pixel count may become `pb` and `cnt`: elements in order, the count with them and never past `pxtotal` (R23, R27). -/
def GrowsTo (s : State) (pb : Cells Pixel) (cnt : Word32) : Prop :=
  (s.pxcnt.toNat ≤ s.pxtotal.toNat → cnt.toNat ≤ s.pxtotal.toNat) ∧
    (s.pb.map Prod.fst = List.range s.pxcnt.toNat → pb.map Prod.fst = List.range cnt.toNat)

/-- `t` is `s` with PB grown, and nothing else changed (R127). -/
def AddsPixels (s t : State) : Prop :=
  ∃ pb cnt, t = { s with pb := pb, pxcnt := cnt } ∧ GrowsTo s pb cnt

/-- What a chunk of `n` bytes that completes can do: pixels, the cache, `prev`, and `pc` past its bytes, which are there (R24, R126). -/
def TakesChunk (n : Nat) (s t : State) : Prop :=
  ∃ pb cnt cache prev,
    t = { s with
          pb := pb, pxcnt := cnt, cache := cache, prev := prev, ipos := s.ipos + BitVec.ofNat 64 n } ∧
      GrowsTo s pb cnt ∧ s.ipos.toNat + n ≤ s.ilen.toNat

/-- The header registers and the pixel count that comes with them (R21, R23). -/
def headerSide (s : State) : Word32 × Word32 × Byte × Byte × Word32 :=
  (s.hdrWidth, s.hdrHeight, s.hdrChannels, s.hdrColorspace, s.pxtotal)

/-- The registers that only the decoder and the commands write: `pc` and the header registers. -/
def decoderSide (s : State) : Offset × Word32 × Word32 × Byte × Byte × Word32 :=
  (s.ipos, headerSide s)

theorem RaisedFrom.decoderSide {s t : State} (h : RaisedFrom s t) :
    decoderSide t = decoderSide s := by
  obtain ⟨k, o, e, f, rfl, -, -⟩ := h
  rfl

theorem codeSpace_eq_ctrl_iff {i : Instr} : codeSpace i = some .ctrl ↔ i = .start ∨ i = .sreset := by
  cases i <;> simp [codeSpace]

theorem codeSpace_eq_header_iff {i : Instr} :
    codeSpace i = some .header ↔ ∃ m w h c cs, i = .header m w h c cs := by
  cases i <;> simp [codeSpace]

theorem codeSpace_eq_endMarker_iff {i : Instr} :
    codeSpace i = some .endMarker ↔ ∃ m, i = .endMarker m := by
  cases i <;> simp [codeSpace]

section Chunks
variable {s t u : State} {n : Nat}

theorem AddsPixels.refl (s : State) : AddsPixels s s := ⟨s.pb, s.pxcnt, rfl, id, id⟩

theorem AddsPixels.trans (h : AddsPixels s t) (h' : AddsPixels t u) : AddsPixels s u := by
  obtain ⟨pb, cnt, rfl, hcnt, hpb⟩ := h
  obtain ⟨pb', cnt', rfl, hcnt', hpb'⟩ := h'
  exact ⟨pb', cnt', rfl, hcnt' ∘ hcnt, hpb' ∘ hpb⟩

theorem AddsPixels.takesChunk (h : AddsPixels s u) {cache : Vector Pixel 64} {prev : Pixel}
    (ht : t = advancePc n { u with cache := cache, prev := prev })
    (hfit : s.ipos.toNat + n ≤ s.ilen.toNat) : TakesChunk n s t := by
  obtain ⟨pb, cnt, rfl, hgrow⟩ := h
  exact ⟨pb, cnt, cache, prev, ht, hgrow, hfit⟩

theorem addsPixels_of_produce {p : Pixel} (h : produce p s = .next t) : AddsPixels s t := by
  obtain ⟨hlt, rfl⟩ := (produce_eq_next p).mp h
  have hsucc := toNat_succ_of_lt hlt
  refine ⟨_, _, rfl, fun _ => by omega, fun hpb => ?_⟩
  rw [hsucc]
  exact Cells.write_map_fst_range _ _ _ hpb

theorem addsPixels_of_produceMany {p : Pixel} {k : Nat} (h : produceMany p k s = .next t) :
    AddsPixels s t := by
  induction k generalizing s with
  | zero =>
    cases h
    exact .refl t
  | succ k ih =>
    obtain ⟨u, hone, hmany⟩ := andThen_eq_next.mp h
    exact (addsPixels_of_produce hone).trans (ih hmany)

theorem withChunk_cases {k : State → Result} (h : withChunk n s k = .next t) :
    RaisedFrom s t ∨ s.ipos.toNat + n ≤ s.ilen.toNat ∧ k s = .next t := by
  rcases (withChunk_eq_next n k).mp h with ⟨-, rfl⟩ | ⟨-, -, rfl⟩ | ⟨-, hfit, hk⟩
  · exact .inl ⟨.truncatedChunk, _, _, _, rfl, nofun, nofun⟩
  · exact .inl ⟨.truncatedChunk, _, _, _, rfl, nofun, nofun⟩
  · exact .inr ⟨hfit, hk⟩

theorem withChunk_putPixel_cases {p : State → Pixel}
    (h : withChunk n s (fun s => putPixel n (p s) s) = .next t) :
    RaisedFrom s t ∨ TakesChunk n s t := by
  refine (withChunk_cases h).imp_right fun ⟨hfit, hput⟩ => ?_
  obtain ⟨u, hu, hrest⟩ := andThen_eq_next.mp hput
  exact (addsPixels_of_produce hu).takesChunk (Host.Outcome.next.inj hrest).symm hfit

/-- All that a chunk can do: raise, or be taken whole (R124, R126, R139). -/
theorem exec_chunk_cases {i : Instr} (hi : codeSpace i = some .chunk) (h : exec i s = .next t) :
    RaisedFrom s t ∨ TakesChunk (encode i).length s t := by
  cases i <;> simp only [exec, execRgb, execRgba, execIndex, execDiff, execLuma, execRun] at h
  case rgb => exact withChunk_putPixel_cases h
  case rgba => exact withChunk_putPixel_cases h
  case diff => exact withChunk_putPixel_cases h
  case luma => exact withChunk_putPixel_cases h
  case index slot =>
    refine (withChunk_cases h).imp_right fun ⟨hfit, hindex⟩ => ?_
    obtain ⟨u, hu, hrest⟩ := andThen_eq_next.mp hindex
    exact (addsPixels_of_produce hu).takesChunk (Host.Outcome.next.inj hrest).symm hfit
  case run count =>
    rcases withChunk_cases h with hraise | ⟨hfit, hrun⟩
    · exact .inl hraise
    split_ifs at hrun
    · cases hrun
      exact .inl ⟨.runOverflow, _, _, _, rfl, nofun, nofun⟩
    · obtain ⟨u, hu, hrest⟩ := andThen_eq_next.mp hrun
      exact .inr ((addsPixels_of_produceMany hu).takesChunk (Host.Outcome.next.inj hrest).symm hfit)
  all_goals cases hi

theorem advancePc_toNat_ipos (h : s.ipos.toNat + n ≤ s.ilen.toNat) :
    (advancePc n s).ipos.toNat = s.ipos.toNat + n := by
  have hlen := s.ilen.isLt
  simp only [advancePc_ipos, BitVec.toNat_add, BitVec.toNat_ofNat]
  omega

theorem TakesChunk.toNat_ipos (h : TakesChunk n s t) :
    t.ipos.toNat = s.ipos.toNat + n ∧ t.ipos.toNat ≤ t.ilen.toNat := by
  obtain ⟨pb, cnt, cache, prev, rfl, -, hfit⟩ := h
  have hipos := advancePc_toNat_ipos hfit
  exact ⟨hipos, hipos.trans_le hfit⟩

theorem TakesChunk.headerSide (h : TakesChunk n s t) : headerSide t = headerSide s := by
  obtain ⟨pb, cnt, cache, prev, rfl, -, -⟩ := h
  rfl

end Chunks

section Framing
variable {s t : State}

/-- END on this hardware, whose policy ignores what follows the marker (R7, R144, R145). -/
theorem exec_endMarker_cases {m : Word64} (h : exec (.endMarker m) s = .next t) :
    RaisedFrom s t ∨ s.ipos.toNat + 8 ≤ s.ilen.toNat ∧ t = advancePc 8 s := by
  have ht : endWith Config.hw m s = t := Host.Outcome.next.inj h
  rw [← ht, endWith]
  split_ifs with hshort hmarker
  · exact .inl ⟨.badEndMarker, _, _, _, rfl, nofun, nofun⟩
  · exact .inl ⟨.badEndMarker, _, _, _, rfl, nofun, nofun⟩
  · exact .inr ⟨by omega, if_neg nofun⟩

/-- HEADER raises, or latches a legal header and moves `pc` past its 14 bytes (R122, R141). -/
theorem exec_header_cases {m w h : Word32} {c cs : Byte} (hx : exec (.header m w h c cs) s = .next t) :
    RaisedFrom s t ∨
      14 ≤ s.ilen.toNat ∧ HeaderLegal t ∧
        t = { s with
              hdrWidth := w, hdrHeight := h, hdrChannels := c, hdrColorspace := cs,
              pxtotal := BitVec.ofNat 32 (w.toNat * h.toNat), ipos := 14 } := by
  have ht : headerWith Config.hw m w h c cs s = t := Host.Outcome.next.inj hx
  rcases headerWith_cases Config.hw m w h c cs s with
    ⟨k, o, e, f, hraise, hk, hk'⟩ | ⟨hlen, hw, hh, hc, hcs, hsize, hlatch⟩
  · exact .inl ⟨k, o, e, f, ht.symm.trans hraise, hk, hk'⟩
  · rw [← ht, hlatch]
    have hcpos : 0 < c.toNat := by rcases hc with rfl | rfl <;> decide
    have htotal : w.toNat * h.toNat < 2 ^ 32 :=
      lt_of_le_of_lt (Nat.le_mul_of_pos_right _ hcpos) hsize
    exact .inr ⟨hlen, ⟨BitVec.toNat_pos_of_ne_zero hw, BitVec.toNat_pos_of_ne_zero hh, hc, hcs, hsize,
      Nat.mod_eq_of_lt htotal⟩, rfl⟩

end Framing

section EncodeSide
variable {s t : State}

theorem decoderSide_putBit (b : Bool) (s : State) : decoderSide (putBit b s) = decoderSide s := by
  unfold putBit
  dsimp only
  split_ifs <;> rfl

theorem decoderSide_bitsPut (v : BitVec 16) (k : Nat) (s : State) :
    decoderSide (bitsPut v k s) = decoderSide s := by
  unfold bitsPut
  generalize (List.range k).map v.getLsbD = bits
  induction bits generalizing s with
  | nil => rfl
  | cons b bits ih => exact (ih (putBit b s)).trans (decoderSide_putBit b s)

theorem decoderSide_bitsAlign (s : State) : decoderSide (bitsAlign s) = decoderSide s := by
  unfold bitsAlign
  split_ifs <;> rfl

theorem decoderSide_storedBlock (final : Bool) (piece : List Byte) (s : State) :
    decoderSide (storedBlock final piece s) = decoderSide s := by
  have header (v : BitVec 16) :
      decoderSide (bitsAlign (bitsPut 0 2 (bitsPut v 1 s))) = decoderSide s := by
    rw [decoderSide_bitsAlign, decoderSide_bitsPut, decoderSide_bitsPut]
  rw [← header ((BitVec.ofBool final).zeroExtend 16)]
  simp only [storedBlock]
  generalize bitsAlign (bitsPut 0 2 (bitsPut ((BitVec.ofBool final).zeroExtend 16) 1 s)) = u
  rfl

theorem decoderSide_of_frameChunk {ty : Word32} {d : List Byte} (h : frameChunk ty d s = .next t) :
    decoderSide t = decoderSide s := by
  obtain ⟨-, rfl⟩ := (frameChunk_eq_next ty d).mp h
  rfl

/-- FILT.ROW on this hardware: row `frow` as filter type 0 and its raw bytes (R183). -/
theorem emitRow_hw_eq_next (h : emitRow Config.hw s = .next t) :
    ∃ raw, rawRow s s.frow.toNat = some raw ∧ s.frow.toNat < s.hdrHeight.toNat ∧
      t = { s with fb := s.fb ++ 0 :: raw, frow := s.frow + 1 } := by
  unfold emitRow at h
  split_ifs at h with hrow
  split at h
  · next raw above hraw habove =>
    cases h
    exact ⟨raw, hraw, by simpa [BitVec.le_def] using hrow, rfl⟩
  · cases h

theorem exec_filtRow_cases (h : exec .filtRow s = .next t) :
    RaisedFrom s t ∨ emitRow Config.hw s = .next t := by
  have h : filtRowWith Config.hw s = .next t := h
  rw [filtRowWith_eq] at h
  split_ifs at h
  · cases h
    exact .inl ⟨.encBadChannels, _, _, _, rfl, nofun, nofun⟩
  · cases h
    exact .inl ⟨.encZeroDim, _, _, _, rfl, nofun, nofun⟩
  · exact .inr h
  · exact .inr h

/-- An operation that is not written in IN or CTRL leaves `pc` and the header registers (R21, R24, R79). -/
theorem exec_decoderSide {i : Instr} (hi : codeSpace i = none) (h : exec i s = .next t) :
    decoderSide t = decoderSide s := by
  cases i with
  | filtRow =>
    rcases exec_filtRow_cases h with hraise | hrow
    · exact hraise.decoderSide
    · obtain ⟨raw, -, -, rfl⟩ := emitRow_hw_eq_next hrow
      rfl
  | bitsPut =>
    cases h
    exact decoderSide_bitsPut _ _ s
  | bitsAlign =>
    cases h
    exact decoderSide_bitsAlign s
  | deflateStored =>
    simp only [exec, execDeflateStored, deflateStoredWith] at h
    split_ifs at h
    cases h
    exact decoderSide_storedBlock _ _ s
  | pngChunk => exact decoderSide_of_frameChunk h
  | pngIhdr =>
    simp only [exec, execPngIhdr] at h
    split at h
    · exact decoderSide_of_frameChunk h
    · cases h
  | pngIdat =>
    simp only [exec, execPngIdat, idatWith] at h
    split_ifs at h
    exact decoderSide_of_frameChunk h
  | pngIend => exact decoderSide_of_frameChunk (ty := typeIend) (d := []) h
  | rgb | rgba | index | diff | luma | run | header | endMarker | start | sreset => cases hi
  | _ =>
    cases h
    rfl

end EncodeSide

/-- Only HEADER and the commands write the header registers (R21, R23). -/
theorem exec_headerSide {i : Instr} {s t : State} (hctrl : codeSpace i ≠ some .ctrl)
    (hheader : codeSpace i ≠ some .header) (h : exec i s = .next t) : headerSide t = headerSide s := by
  cases hi : codeSpace i with
  | none => exact congrArg Prod.snd (exec_decoderSide hi h)
  | some sp =>
    cases sp with
    | chunk =>
      rcases exec_chunk_cases hi h with hraise | htake
      · exact congrArg Prod.snd hraise.decoderSide
      · exact htake.headerSide
    | endMarker =>
      obtain ⟨m, rfl⟩ := codeSpace_eq_endMarker_iff.mp hi
      rcases exec_endMarker_cases h with hraise | ⟨-, rfl⟩
      · exact congrArg Prod.snd hraise.decoderSide
      · rfl
    | header => exact absurd hi hheader
    | ctrl => exact absurd hi hctrl

/-- Settles O32: the commands have their own equations, and every other instruction leaves the host's side, and the header registers unless it is HEADER. -/
theorem inputAndHeaderRegistersAreReadOnly : Obligations.InputAndHeaderRegistersAreReadOnly := by
  unfold Obligations.InputAndHeaderRegistersAreReadOnly
  intro i s t h
  by_cases hctrl : codeSpace i = some .ctrl
  · rcases codeSpace_eq_ctrl_iff.mp hctrl with rfl | rfl
    · rw [exec_start_eq] at h
      split_ifs at h <;> cases h
      · exact ⟨rfl, rfl, fun _ => rfl, fun hne => absurd rfl hne⟩
      · exact ⟨rfl, rfl, fun _ => rfl, fun hne => absurd rfl hne⟩
    · cases h
      exact ⟨rfl, rfl, fun hne => absurd rfl hne, fun _ hne => absurd rfl hne⟩
  · have hside := (mirrors_exec (m := s.inp) (q := s.freeSeq) s (fun _ _ => rfl) i hctrl t h).1
    simp only [hostSide, Prod.mk.injEq] at hside
    obtain ⟨hhost, hinp, hilen, -⟩ := hside
    refine ⟨hinp, hhost, fun _ => hilen, fun _ _ hheader => ?_⟩
    have hkept : headerSide t = headerSide s := by
      refine exec_headerSide hctrl (fun hsp => ?_) h
      obtain ⟨m, w, ht, c, cs, rfl⟩ := codeSpace_eq_header_iff.mp hsp
      exact hheader m w ht c cs rfl
    simpa only [headerSide, Prod.mk.injEq] using hkept

/-- Settles O33: an item is taken whole or raises, and an operation that is not written in IN leaves `pc`. -/
theorem pcAdvancesByTheItemLength : Obligations.PcAdvancesByTheItemLength := by
  unfold Obligations.PcAdvancesByTheItemLength
  intro i s t _ h hstart hsreset hpc
  have raised (hraise : RaisedFrom s t) :
      t.ipos = s.ipos ∧ (codeSpace i = none ∨ ∃ k o e f, t = raise k o e f s) := by
    obtain ⟨k, o, e, f, rfl, -, -⟩ := hraise
    exact ⟨rfl, .inr ⟨k, o, e, f, rfl⟩⟩
  cases hi : codeSpace i with
  | none => exact .inl ⟨congrArg Prod.fst (exec_decoderSide hi h), .inl rfl⟩
  | some sp =>
    rw [hi] at raised
    cases sp with
    | chunk =>
      exact (exec_chunk_cases hi h).imp raised fun htake => ⟨nofun, htake.toNat_ipos⟩
    | header =>
      obtain ⟨m, w, ht, c, cs, rfl⟩ := codeSpace_eq_header_iff.mp hi
      refine (exec_header_cases h).imp raised fun ⟨hlen, _, hu⟩ => ⟨nofun, ?_⟩
      rw [hu, hpc ⟨_, _, _, _, _, rfl⟩]
      exact ⟨rfl, hlen⟩
    | endMarker =>
      obtain ⟨m, rfl⟩ := codeSpace_eq_endMarker_iff.mp hi
      refine (exec_endMarker_cases h).imp raised fun ⟨hfit, ht⟩ => ⟨nofun, ?_⟩
      rw [ht, advancePc_toNat_ipos hfit]
      exact ⟨rfl, hfit⟩
    | ctrl =>
      rcases codeSpace_eq_ctrl_iff.mp hi with rfl | rfl
      · exact absurd rfl hstart
      · exact absurd rfl hsreset

/-! The invariant, phase by phase (R27, R31, R34, R73, R205): what `Inv` says in each phase is one definition, tied to it by `inv_iff`. -/

/-- The part of the invariant that does not look at the phase. -/
def CommonInv (s : State) : Prop :=
  Memory.wf s.inp ∧ s.pxcnt.toNat ≤ s.pxtotal.toNat ∧ s.opos.toNat = s.out.length ∧ UnitInv s

/-- The part of the invariant that holds outside ERROR: PB holds the pixels counted, and the latches are clear (R27, R34). -/
def LiveInv (s : State) : Prop :=
  CommonInv s ∧ s.pb.map Prod.fst = List.range s.pxcnt.toNat ∧
    s.errKind = .none ∧ s.errCause = .none ∧ s.errOffset = 0 ∧ s.errExpected = 0 ∧ s.errFound = 0

/-- Nothing of the encode side has been written. -/
def EncodeClear (s : State) : Prop := s.frow = 0 ∧ s.fb = [] ∧ s.zs = [] ∧ s.out = []

/-- The image is legal and decoded (R21, R143). -/
def ImageDecoded (s : State) : Prop := LiveInv s ∧ HeaderLegal s ∧ s.pxcnt = s.pxtotal

/-- How far ZS has come in phase DEFLATE for `f` bytes of FB: nothing, or the zlib header and `blk` blocks (R213). -/
def DeflateProgress (f : Nat) (blk : Offset) (zs : List Byte) : Prop :=
  blk.toNat ≤ blockCount Config.hw f ∧
    (zs = [] ∧ blk = 0 ∨ zs.length = 2 + 5 * blk.toNat + min f (blk.toNat * Config.hw.blockMax))

/-- `n` bytes of OUT end at the signature's start or end, or at that of a piece of `z` bytes of ZS (R232). -/
def FrameProgress (n z : Nat) : Prop :=
  n = 0 ∨ n = 8 ∨
    ∃ j, j ≤ pieceCount Config.hw z ∧ n = 33 + 12 * j + min z (j * Config.hw.idatMax)

/-- The invariant in one phase. -/
def PhaseInv (s : State) : Phase → Prop
  | .idle => LiveInv s ∧ HeaderClear s ∧ s.ipos = 0 ∧ EncodeClear s
  | .decHdr =>
    LiveInv s ∧ HeaderClear s ∧ s.ipos = 0 ∧ s.ipos.toNat ≤ s.ilen.toNat ∧ EncodeClear s
  | .decBody =>
    LiveInv s ∧ HeaderLegal s ∧ s.pxcnt.toNat < s.pxtotal.toNat ∧ s.ipos.toNat ≤ s.ilen.toNat ∧
      EncodeClear s
  | .decEnd => ImageDecoded s ∧ s.ipos.toNat ≤ s.ilen.toNat ∧ EncodeClear s
  | .filter =>
    ImageDecoded s ∧ s.ipos.toNat ≤ s.ilen.toNat ∧ s.frow.toNat < s.hdrHeight.toNat ∧
      s.fb.length = s.frow.toNat * rowLen s ∧ s.zs = [] ∧ s.out = []
  | .deflate =>
    ImageDecoded s ∧ s.ipos.toNat ≤ s.ilen.toNat ∧ s.fb.length = payloadLen s ∧
      DeflateProgress s.fb.length s.blk s.zs ∧ s.out = []
  | .frame =>
    ImageDecoded s ∧ s.ipos.toNat ≤ s.ilen.toNat ∧ s.fb.length = payloadLen s ∧
      s.zs.length = zlibLen Config.hw s.fb.length ∧ FrameProgress s.out.length s.zs.length
  | .done =>
    ImageDecoded s ∧ s.fb.length = payloadLen s ∧ s.zs.length = zlibLen Config.hw s.fb.length ∧
      s.out.length = pngLen Config.hw s.zs.length
  | .error =>
    CommonInv s ∧ (HeaderClear s ∨ HeaderLegal s) ∧
      (s.errCause ≠ .none ∧ s.errCause ≠ .reservedTag ∧ s.errKind = causeKind s.errCause) ∧
      s.pb = [] ∧ s.fb = [] ∧ s.zs = [] ∧ s.out = []

/-- `Inv` says in each phase what `PhaseInv` says of it. -/
theorem inv_iff {s : State} {p : Phase} (hp : s.phase = p) : Inv s ↔ PhaseInv s p := by
  subst hp
  cases h : s.phase <;>
    simp only [Inv, StorageInv, CounterInv, LatchInv, DecodeInv, FilterInv, DeflateInv, FrameInv,
      BeforeFilter, AfterHeader, busy, busyPhase, h, PhaseInv, CommonInv, LiveInv, EncodeClear,
      ImageDecoded, DeflateProgress, FrameProgress, reduceCtorEq, or_true, or_false, forall_const,
      ne_eq, not_true_eq_false, not_false_eq_true, and_true, true_and, and_false, IsEmpty.forall_iff,
      Bool.false_eq_true] <;>
    exact iff_of_eq (by ac_rfl)
theorem inv_of_phaseInv {s : State} {p : Phase} (hp : s.phase = p) (h : PhaseInv s p) : Inv s :=
  (inv_iff hp).mpr h

section
variable {s t : State}

theorem Inv.common (hi : Inv s) : CommonInv s := by
  obtain ⟨⟨hinp, -⟩, ⟨hcnt, -, hopos⟩, hunit, -⟩ := hi
  exact ⟨hinp, hcnt, hopos, hunit⟩

theorem Inv.header (hi : Inv s) : HeaderClear s ∨ HeaderLegal s := by
  obtain ⟨-, -, -, -, ⟨hclear, hlegal, herror, -⟩, -⟩ := hi
  cases hp : s.phase with
  | idle => exact .inl (hclear (.inl hp)).1
  | decHdr => exact .inl (hclear (.inr hp)).1
  | error => exact herror hp
  | _ => exact .inr (hlegal (by simp only [AfterHeader, hp, reduceCtorEq, true_or, or_true]))

theorem inv_raise {k : ErrCause} (hk : k ≠ .none ∧ k ≠ .reservedTag) (o : Offset) (e f : Word64)
    (hi : Inv s) : Inv (raise k o e f s) := by
  obtain ⟨hinp, hcnt, -, hunit⟩ := hi.common
  exact inv_of_phaseInv (p := .error) rfl
    ⟨⟨hinp, hcnt, rfl, hunit⟩, hi.header, ⟨hk.1, hk.2, rfl⟩, rfl, rfl, rfl, rfl⟩

/-- An exception from any state that meets the invariant (R300, R302). -/
theorem RaisedFrom.inv (h : RaisedFrom s t) (hi : Inv s) : Inv t := by
  obtain ⟨k, o, e, f, rfl, hk⟩ := h
  exact inv_raise hk o e f hi

theorem liveInv_of_isFresh {p : Phase} (h : IsFresh p t) (hinp : Memory.wf t.inp) : LiveInv t := by
  have hunit : UnitInv State.reset := by decide
  rw [h]
  exact ⟨⟨hinp, le_rfl, rfl, hunit⟩, rfl, rfl, rfl, rfl, rfl, rfl⟩

/-- A fresh state meets the invariant, in IDLE and in DEC_HDR (R39). -/
theorem inv_of_isFresh {p : Phase} (hp : p = .idle ∨ p = .decHdr) (h : IsFresh p t)
    (hinp : Memory.wf t.inp) : Inv t := by
  have hlive := liveInv_of_isFresh h hinp
  have hphase : t.phase = p := by rw [h]
  have hclear : HeaderClear t := by
    rw [h]
    exact ⟨rfl, rfl, rfl, rfl, rfl⟩
  have hencode : EncodeClear t := by
    rw [h]
    exact ⟨rfl, rfl, rfl, rfl⟩
  have hipos : t.ipos = 0 := by
    rw [h]
    rfl
  rw [inv_iff hphase]
  rcases hp with rfl | rfl
  · exact ⟨hlive, hclear, hipos, hencode⟩
  · exact ⟨hlive, hclear, hipos, by rw [hipos]; exact Nat.zero_le _, hencode⟩

end

/-- Settles O53: reset is a fresh state with nothing placed in IN. -/
theorem resetMeetsTheInvariant : Obligations.ResetMeetsTheInvariant :=
  inv_of_isFresh (.inl rfl) isFresh_reset reset_inp_wf

/-! PB as the host reads it (R27). -/

theorem Cells.read_isSome_iff {α : Type} (m : Cells α) (a : Nat) :
    (Cells.read m a).isSome = true ↔ a ∈ m.map Prod.fst := by
  induction m with
  | nil => simp
  | cons kv m ih =>
    obtain ⟨k, v⟩ := kv
    rw [Cells.read_cons, List.map_cons, List.mem_cons]
    by_cases hk : k = a
    · simp [hk]
    · rw [if_neg hk, ih]
      simp [Ne.symm hk]

/-- PB holds a value exactly at the addresses of the pixels written so far (R27). -/
theorem pbRead_isSome_iff {s : State} {n : Nat} (h : s.pb.map Prod.fst = List.range n) (a : Nat) :
    (pbRead s a).isSome = true ↔ a < n := by
  rw [pbRead, Cells.read_isSome_iff, h, List.mem_range]

/-- Settles O26: in DONE every pixel of the image has been written, and the invariant says that PB holds just those. -/
theorem pixelsReadableOnlyWhenDone : Obligations.PixelsReadableOnlyWhenDone := by
  unfold Obligations.PixelsReadableOnlyWhenDone
  intro s a hi
  unfold readPixel
  by_cases hdone : s.phase = .done
  · obtain ⟨⟨⟨-, hpb, -⟩, ⟨-, -, -, -, -, htotal⟩, hfull⟩, -⟩ := (inv_iff hdone).mp hi
    rw [if_pos (doneFlag_eq_true_iff.mpr hdone), pbRead_isSome_iff hpb, hfull, htotal]
    simp [hdone]
  · rw [if_neg (mt doneFlag_eq_true_iff.mp hdone)]
    simp [hdone]

/-! Every operation of the block keeps the invariant, phase by phase (R121, R184, R213, R232). -/

section
variable {s t : State} {i : Instr} {sp : CodeSpace} {a : Nat}

theorem raiseReject_cases (r : Reject) (s : State) :
    raiseReject r s = s ∨ RaisedFrom s (raiseReject r s) := by
  cases r with
  | noCommand => exact .inl rfl
  | noLeadByte => exact .inr ⟨.truncatedChunk, _, _, _, rfl, nofun, nofun⟩
  | truncatedChunk => exact .inr ⟨.truncatedChunk, _, _, _, rfl, nofun, nofun⟩
  | truncatedHeader => exact .inr ⟨.truncatedHeader, _, _, _, rfl, nofun, nofun⟩
  | truncatedMarker => exact .inr ⟨.badEndMarker, _, _, _, rfl, nofun, nofun⟩

theorem advance_of_raised (h : RaisedFrom s t) : advance i t = t := by
  obtain ⟨k, o, e, f, rfl, -, -⟩ := h
  rfl

/-! Where the phase goes after an operation that did not raise, one equation for each busy phase (R261). -/

theorem advance_of_decHdr (h : t.phase = .decHdr) : advance i t = { t with phase := .decBody } := by
  unfold advance
  rw [h]

theorem advance_of_decBody (h : t.phase = .decBody) :
    advance i t = if t.pxcnt = t.pxtotal then { t with phase := .decEnd } else t := by
  unfold advance
  rw [h]

theorem advance_of_decEnd (h : t.phase = .decEnd) : advance i t = { t with phase := .filter } := by
  unfold advance
  rw [h]

theorem advance_of_filter (h : t.phase = .filter) :
    advance i t =
      if t.frow = t.hdrHeight then enterDeflate { t with phase := .deflate } else t := by
  unfold advance
  rw [h]

theorem advance_of_deflate (h : t.phase = .deflate) :
    advance i t = if i = .zlibTrailer then { t with phase := .frame } else t := by
  unfold advance
  rw [h]

theorem advance_of_frame (h : t.phase = .frame) :
    advance i t = if i = .pngIend then { t with phase := .done } else t := by
  unfold advance
  rw [h]

/-- An operation keeps the invariant if it raises, or if its effect with the phase's move does. -/
theorem inv_of_perform_run (hi : Inv s)
    (hop : ∀ u, exec i s = .next u → RaisedFrom s u ∨ Inv (advance i u))
    (h : perform (.run i) s = .next t) : Inv t := by
  obtain ⟨u, hexec, hadvance⟩ := andThen_eq_next.mp h
  cases hadvance
  rcases hop u hexec with hraise | hinv
  · rw [advance_of_raised hraise]
    exact hraise.inv hi
  · exact hinv

/-- A fetch keeps the invariant if every item of its code space does. -/
theorem inv_of_perform_fetch (hi : Inv s)
    (hitem : ∀ i u, codeSpace i = some sp → exec i s = .next u → RaisedFrom s u ∨ Inv (advance i u))
    (h : perform (fetch sp a s) s = .next t) : Inv t := by
  unfold fetch at h
  cases hd : decode sp (inWindow s a (spaceBytes sp)) with
  | ok item =>
    rw [hd] at h
    exact inv_of_perform_run hi (fun u => hitem item.1 u (decode_codeSpace hd)) h
  | error r =>
    rw [hd] at h
    cases h
    rcases raiseReject_cases r s with heq | hraise
    · rwa [heq]
    · exact hraise.inv hi

/-! The decoder's phases. -/

theorem inv_advance_header (hp : s.phase = .decHdr) (hi : Inv s) (hsp : codeSpace i = some .header)
    (h : exec i s = .next t) : RaisedFrom s t ∨ Inv (advance i t) := by
  obtain ⟨m, w, ht, c, cs, rfl⟩ := codeSpace_eq_header_iff.mp hsp
  refine (exec_header_cases h).imp_right fun ⟨hlen, hlegal, hu⟩ => ?_
  obtain ⟨⟨⟨hinp, hcnt, hopos, hunit⟩, hpb, hlatch⟩, ⟨-, -, -, -, htotal⟩, -, -, hencode⟩ :=
    (inv_iff hp).mp hi
  have hnone : s.pxcnt.toNat = 0 := by simpa [htotal] using hcnt
  have hphase : t.phase = .decHdr := by rw [hu, hp]
  rw [advance_of_decHdr hphase]
  subst hu
  obtain ⟨hw, hh, hc, hcs, hsize, hpixels⟩ := hlegal
  have hsome : s.pxcnt.toNat < (BitVec.ofNat 32 (w.toNat * ht.toNat)).toNat := by
    rw [hpixels, hnone]
    exact Nat.mul_pos hw hh
  exact inv_of_phaseInv (p := .decBody) rfl
    ⟨⟨⟨hinp, hsome.le, hopos, hunit⟩, hpb, hlatch⟩, ⟨hw, hh, hc, hcs, hsize, hpixels⟩, hsome, hlen,
      hencode⟩

theorem inv_advance_chunk (hp : s.phase = .decBody) (hi : Inv s) (hsp : codeSpace i = some .chunk)
    (h : exec i s = .next t) : RaisedFrom s t ∨ Inv (advance i t) := by
  refine (exec_chunk_cases hsp h).imp_right fun htake => ?_
  obtain ⟨hipos, hilen⟩ := htake.toNat_ipos
  obtain ⟨pb, cnt, cache, prev, ht, ⟨hcnt, hpb⟩, hfit⟩ := htake
  have hphase : t.phase = .decBody := by rw [ht, hp]
  rw [advance_of_decBody hphase]
  subst ht
  obtain ⟨⟨⟨hinp, hcnt', hopos, hunit⟩, hpb', hlatch⟩, hlegal, -, -, hencode⟩ := (inv_iff hp).mp hi
  have hlive : ∀ p, LiveInv { s with
      pb := pb, pxcnt := cnt, cache := cache, prev := prev,
      ipos := s.ipos + BitVec.ofNat 64 (encode i).length, phase := p } :=
    fun p => ⟨⟨hinp, hcnt hcnt', hopos, hunit⟩, hpb hpb', hlatch⟩
  split_ifs with hfull
  · exact inv_of_phaseInv (p := .decEnd) rfl ⟨⟨hlive _, hlegal, hfull⟩, hilen, hencode⟩
  · have hmore : cnt.toNat < s.pxtotal.toNat :=
      lt_of_le_of_ne (hcnt hcnt') fun e => hfull (BitVec.eq_of_toNat_eq e)
    exact inv_of_phaseInv hp ⟨hlive s.phase, hlegal, hmore, hilen, hencode⟩

theorem inv_advance_endMarker (hp : s.phase = .decEnd) (hi : Inv s)
    (hsp : codeSpace i = some .endMarker) (h : exec i s = .next t) :
    RaisedFrom s t ∨ Inv (advance i t) := by
  obtain ⟨m, rfl⟩ := codeSpace_eq_endMarker_iff.mp hsp
  refine (exec_endMarker_cases h).imp_right fun ⟨hfit, ht⟩ => ?_
  obtain ⟨⟨hlive, hlegal, hfull⟩, -, hrow, hfb, hzs, hout⟩ := (inv_iff hp).mp hi
  have hipos := advancePc_toNat_ipos hfit
  have hfirst : s.frow.toNat < s.hdrHeight.toNat := by
    rw [hrow]
    exact hlegal.2.1
  have hlen : s.fb.length = s.frow.toNat * rowLen s := by
    rw [hrow, hfb]
    simp
  have hphase : t.phase = .decEnd := by rw [ht, advancePc_phase, hp]
  rw [advance_of_decEnd hphase]
  subst ht
  exact inv_of_phaseInv (p := .filter) rfl
    ⟨⟨hlive, hlegal, hfull⟩, hipos.trans_le hfit, hfirst, hlen, hzs, hout⟩

/-! FILTER. -/

theorem pbReadMany_length {n : Nat} {ps : List Pixel} (h : pbReadMany s a n = some ps) :
    ps.length = n := by
  induction n generalizing a ps with
  | zero =>
    cases h
    rfl
  | succ n ih =>
    simp only [pbReadMany] at h
    split at h
    · next p qs _ hqs =>
      cases h
      rw [List.length_cons, ih hqs]
    · cases h

/-- The raw bytes of a row: every pixel gives as many bytes as there are channels (R182). -/
theorem rawRow_length {y : Nat} {raw : List Byte} (hc : s.hdrChannels = 3 ∨ s.hdrChannels = 4)
    (h : rawRow s y = some raw) : raw.length = s.hdrWidth.toNat * s.hdrChannels.toNat := by
  obtain ⟨ps, hps, rfl⟩ := Option.map_eq_some_iff.mp h
  have hlen (p : Pixel) : (pixelBytes s.hdrChannels p).length = s.hdrChannels.toNat :=
    pixelBytes_length _ _ hc
  rw [List.length_flatMap, List.map_congr_left fun p _ => hlen p, List.map_const', List.sum_replicate,
    pbReadMany_length hps, smul_eq_mul]

theorem inv_advance_filtRow (hp : s.phase = .filter) (hi : Inv s) (h : exec .filtRow s = .next t) :
    RaisedFrom s t ∨ Inv (advance .filtRow t) := by
  refine (exec_filtRow_cases h).imp_right fun hrow => ?_
  obtain ⟨raw, hraw, hlt, ht⟩ := emitRow_hw_eq_next hrow
  have hphase : t.phase = .filter := by rw [ht, hp]
  rw [advance_of_filter hphase]
  subst ht
  obtain ⟨⟨hlive, hlegal, hfull⟩, hpc, -, hfb, hzs, hout⟩ := (inv_iff hp).mp hi
  have hnext := toNat_succ_of_lt hlt
  have hlen : (s.fb ++ 0 :: raw).length = (s.frow + 1).toNat * rowLen s := by
    rw [List.length_append, List.length_cons, rawRow_length hlegal.2.2.1 hraw, hfb, hnext, rowLen]
    ring
  split_ifs with hlast
  · have hlast : s.frow + 1 = s.hdrHeight := hlast
    have hpayload : (s.fb ++ 0 :: raw).length = payloadLen s := by rw [hlen, hlast, payloadLen]
    have hunit : UnitInv State.reset := by decide
    obtain ⟨⟨hinp, hcnt, hopos, -⟩, hpb, hlatch⟩ := hlive
    exact inv_of_phaseInv (p := .deflate) rfl
      ⟨⟨⟨⟨hinp, hcnt, hopos, hunit⟩, hpb, hlatch⟩, hlegal, hfull⟩, hpc, hpayload,
        ⟨Nat.zero_le _, .inl ⟨hzs, rfl⟩⟩, hout⟩
  · have hmore : (s.frow + 1).toNat < s.hdrHeight.toNat :=
      lt_of_le_of_ne (by omega) fun e => hlast (BitVec.eq_of_toNat_eq e)
    exact inv_of_phaseInv hp ⟨⟨hlive, hlegal, hfull⟩, hpc, hmore, hlen, hzs, hout⟩

/-! DEFLATE. -/

/-- A legal image has fewer than 2^33 bytes of filtered payload (R73). -/
theorem payloadLen_lt (h : HeaderLegal s) : payloadLen s < 2 ^ 33 := by
  obtain ⟨-, -, -, -, hsize, -⟩ := h
  have hheight := s.hdrHeight.isLt
  have hsum : payloadLen s =
      s.hdrHeight.toNat + s.hdrWidth.toNat * s.hdrHeight.toNat * s.hdrChannels.toNat := by
    unfold payloadLen rowLen
    ring
  omega

theorem blockCount_hw_eq (n : Nat) : blockCount Config.hw n = max 1 ((n + 65535 - 1) / 65535) := by
  rw [blockCount, hw_blockMax]

section
variable {f : Nat} {blk : Offset} {zs bytes : List Byte}

theorem DeflateProgress.append_header (h : DeflateProgress f blk zs) (hempty : zs.length = 0)
    (hlen : bytes.length = 2) : DeflateProgress f blk (zs ++ bytes) := by
  obtain ⟨hblk, hzs⟩ := h
  obtain ⟨-, rfl⟩ := hzs.resolve_right fun e => by omega
  refine ⟨hblk, .inr ?_⟩
  simp [hempty, hlen]

theorem DeflateProgress.length_of_ne_zero (h : DeflateProgress f blk zs) (hstarted : zs.length ≠ 0) :
    zs.length = 2 + 5 * blk.toNat + min f (blk.toNat * 65535) :=
  h.2.resolve_left fun e => hstarted (by rw [e.1, List.length_nil])

theorem DeflateProgress.append_block (h : DeflateProgress f blk zs) (hstarted : zs.length ≠ 0)
    (hmore : blk.toNat < blockCount Config.hw f) (hf : f < 2 ^ 33)
    (hlen : bytes.length = 5 + min 65535 (f - blk.toNat * 65535)) :
    DeflateProgress f (blk + 1) (zs ++ bytes) := by
  have hzs := h.length_of_ne_zero hstarted
  have hcount := blockCount_hw_eq f
  have hnext : (blk + 1).toNat = blk.toNat + 1 := by
    rw [BitVec.toNat_add, show (1 : Offset).toNat = 1 from rfl]
    omega
  refine ⟨hnext.trans_le hmore, .inr ?_⟩
  rw [List.length_append, hzs, hlen, hnext, hw_blockMax]
  omega

theorem DeflateProgress.length_add_trailer (h : DeflateProgress f blk zs) (hstarted : zs.length ≠ 0)
    (hall : blockCount Config.hw f ≤ blk.toNat) : zs.length + 4 = zlibLen Config.hw f := by
  have hzs := h.length_of_ne_zero hstarted
  have hcount := blockCount_hw_eq f
  have hblk := h.1
  rw [zlibLen]
  omega

end

/-- Inside phase DEFLATE the invariant asks only for the progress of ZS and the bound of the sums. -/
theorem inv_of_deflateProgress (hp : s.phase = .deflate) (hi : Inv s) {blk : Offset} {zs : List Byte}
    {a b : BitVec 16} (hprog : DeflateProgress s.fb.length blk zs)
    (hsums : a.toNat < adlerMod ∧ b.toNat < adlerMod) :
    Inv { s with zs := zs, blk := blk, adlerA := a, adlerB := b } := by
  obtain ⟨⟨⟨⟨hinp, hcnt, hopos, hbuf, hbit, -⟩, hpb, hlatch⟩, hlegal, hfull⟩, hpc, hfb, -, hout⟩ :=
    (inv_iff hp).mp hi
  exact inv_of_phaseInv hp
    ⟨⟨⟨⟨hinp, hcnt, hopos, hbuf, hbit, hsums⟩, hpb, hlatch⟩, hlegal, hfull⟩, hpc, hfb, hprog, hout⟩

theorem inv_zlibHeader (hp : s.phase = .deflate) (hi : Inv s) (hempty : s.zs.length = 0)
    (h : exec .zlibHeader s = .next t) : Inv (advance .zlibHeader t) := by
  cases h
  obtain ⟨⟨⟨⟨-, -, -, -, -, hsums⟩, -⟩, -⟩, -, -, hprog, -⟩ := (inv_iff hp).mp hi
  have hphase : (emitZs [0x78, 0x01] s).phase = .deflate := by rw [emitZs_phase, hp]
  rw [advance_of_deflate hphase, if_neg nofun]
  exact inv_of_deflateProgress hp hi (hprog.append_header hempty rfl) hsums

/-- A stored block from a state between steps (R206, R210, R213). -/
theorem exec_deflateStored_eq (hbuf : s.bitbuf = 0) (hbit : s.bitcnt = 0)
    (hmore : s.blk.toNat < blockCount Config.hw s.fb.length) :
    exec .deflateStored s =
      .next
        { s with
          zs := s.zs ++ storedBlockBytes (finalFlag Config.hw s.fb.length s.blk.toNat)
            (blockPiece Config.hw s.fb s.blk.toNat),
          blk := s.blk + 1,
          adlerA :=
            (adlerSteps (s.adlerA, s.adlerB) (blockPiece Config.hw s.fb s.blk.toNat)).1,
          adlerB :=
            (adlerSteps (s.adlerA, s.adlerB) (blockPiece Config.hw s.fb s.blk.toNat)).2 } := by
  have hpiece := blockPiece_length Config.hw s.fb s.blk.toNat
  rw [hw_blockMax] at hpiece
  have hstep := storedBlock_eq (finalFlag Config.hw s.fb.length s.blk.toNat) _ s hbuf hbit
    (hpiece.trans_le (min_le_left _ _))
  rw [← hstep]
  exact if_neg (not_le.mpr hmore)

theorem inv_deflateStored (hp : s.phase = .deflate) (hi : Inv s) (hstarted : s.zs.length ≠ 0)
    (hmore : s.blk.toNat < blockCount Config.hw s.fb.length) (h : exec .deflateStored s = .next t) :
    Inv (advance .deflateStored t) := by
  obtain ⟨⟨⟨⟨-, -, -, hbuf, hbit, hsums⟩, -⟩, hlegal, -⟩, -, hfb, hprog, -⟩ := (inv_iff hp).mp hi
  have hlen : (storedBlockBytes (finalFlag Config.hw s.fb.length s.blk.toNat)
      (blockPiece Config.hw s.fb s.blk.toNat)).length =
      5 + min 65535 (s.fb.length - s.blk.toNat * 65535) := by
    rw [storedBlockBytes_length, blockPiece_length, hw_blockMax]
  have hprog' := hprog.append_block hstarted hmore (hfb ▸ payloadLen_lt hlegal) hlen
  rw [exec_deflateStored_eq hbuf hbit hmore] at h
  have ht := Host.Outcome.next.inj h
  have hphase : t.phase = .deflate := by rw [← ht, hp]
  rw [advance_of_deflate hphase, if_neg nofun, ← ht]
  exact inv_of_deflateProgress hp hi hprog' (adlerSteps_lt _ _ hsums)

theorem inv_zlibTrailer (hp : s.phase = .deflate) (hi : Inv s) (hstarted : s.zs.length ≠ 0)
    (hall : blockCount Config.hw s.fb.length ≤ s.blk.toNat) (h : exec .zlibTrailer s = .next t) :
    Inv (advance .zlibTrailer t) := by
  cases h
  obtain ⟨hdec, hpc, hfb, hprog, hout⟩ := (inv_iff hp).mp hi
  have hlen : (s.zs ++ be32 (adler32 s.fb)).length = zlibLen Config.hw s.fb.length := by
    rw [List.length_append, be32_length]
    exact hprog.length_add_trailer hstarted hall
  have hphase : (emitZs (be32 (adler32 s.fb)) { s with ckOut := adler32 s.fb }).phase = .deflate := by
    rw [emitZs_phase, hp]
  have hnone : s.out.length = 0 := by rw [hout, List.length_nil]
  rw [advance_of_deflate hphase, if_pos rfl]
  exact inv_of_phaseInv (p := .frame) rfl ⟨hdec, hpc, hfb, hlen, .inl hnone⟩

theorem inv_advance_nextDeflate (hp : s.phase = .deflate) (hi : Inv s)
    (h : exec (nextDeflate Config.hw s) s = .next t) : Inv (advance (nextDeflate Config.hw s) t) := by
  unfold nextDeflate at h ⊢
  split_ifs at h ⊢ with hempty hmore
  · exact inv_zlibHeader hp hi hempty h
  · exact inv_deflateStored hp hi hempty hmore h
  · exact inv_zlibTrailer hp hi hempty (not_lt.mp hmore) h

/-! FRAME. -/

section
variable {n z : Nat}

theorem pieceCount_hw_eq (z : Nat) : pieceCount Config.hw z = (z + 2147483647 - 1) / 2147483647 := by
  rw [pieceCount, hw_idatMax]

theorem FrameProgress.le (h : FrameProgress n z) : n ≤ 33 + 12 * pieceCount Config.hw z + z := by
  rcases h with rfl | rfl | ⟨j, hj, rfl⟩ <;> omega

/-- Between IHDR and IEND, `opos` tells the next piece (R73, R232). -/
theorem FrameProgress.next_piece (h : FrameProgress n z) (h0 : n ≠ 0) (h8 : n ≠ 8)
    (hmore : n < 33 + 12 * pieceCount Config.hw z + z) :
    ∃ j, (n - 33) / (12 + Config.hw.idatMax) = j ∧ j < pieceCount Config.hw z ∧
      n = 33 + 12 * j + j * 2147483647 ∧ j * 2147483647 < z := by
  obtain ⟨j, hj, hn⟩ := (h.resolve_left h0).resolve_left h8
  have hcount := pieceCount_hw_eq z
  rw [hw_idatMax] at hn ⊢
  refine ⟨j, ?_, ?_, ?_, ?_⟩ <;> omega

theorem FrameProgress.append_piece (h : FrameProgress n z) (h0 : n ≠ 0) (h8 : n ≠ 8)
    (hmore : n < 33 + 12 * pieceCount Config.hw z + z) :
    FrameProgress
      (n + (12 + min Config.hw.idatMax
        (z - (n - 33) / (12 + Config.hw.idatMax) * Config.hw.idatMax))) z := by
  obtain ⟨j, hpiece, hj, hn, hlt⟩ := h.next_piece h0 h8 hmore
  rw [hpiece, hw_idatMax]
  refine .inr (.inr ⟨j + 1, hj, ?_⟩)
  rw [hw_idatMax]
  omega

theorem FrameProgress.add_end (h : FrameProgress n z)
    (hall : 33 + 12 * pieceCount Config.hw z + z ≤ n) : n + 12 = pngLen Config.hw z := by
  have hle := h.le
  rw [pngLen]
  omega

end

theorem toNat_opos_emitOut {bytes : List Byte} (hopos : s.opos.toNat = s.out.length)
    (hlen : s.out.length + bytes.length < 2 ^ 64) :
    (emitOut bytes s).opos.toNat = (emitOut bytes s).out.length := by
  simp only [emitOut_opos, emitOut_out, BitVec.toNat_add, BitVec.toNat_ofNat, List.length_append]
  omega

/-- An append to OUT that moves it from one point of R232 to another, with whatever the CRC leaves. -/
theorem liveInv_emitOut (hlive : LiveInv s) {bytes : List Byte}
    (hlen : s.out.length + bytes.length < 2 ^ 64) (c ck : Word32) (p : Phase) :
    LiveInv { emitOut bytes s with crc := c, ckOut := ck, phase := p } := by
  obtain ⟨⟨hinp, hcnt, hopos, hunit⟩, hpb, hlatch⟩ := hlive
  exact ⟨⟨hinp, hcnt, toNat_opos_emitOut hopos hlen, hunit⟩, hpb, hlatch⟩

/-- OUT stays far below 2^64 bytes (R73). -/
theorem pngLen_lt {f : Nat} (hf : f < 2 ^ 33) : pngLen Config.hw (zlibLen Config.hw f) < 2 ^ 64 := by
  have hblocks := blockCount_hw_eq f
  have hpieces := pieceCount_hw_eq (zlibLen Config.hw f)
  rw [pngLen]
  rw [zlibLen] at hpieces ⊢
  omega

theorem inv_emitOut (hp : s.phase = .frame) (hi : Inv s) {bytes : List Byte}
    (hprog : FrameProgress (s.out.length + bytes.length) s.zs.length) (c ck : Word32) :
    Inv { emitOut bytes s with crc := c, ckOut := ck } := by
  obtain ⟨⟨hlive, hlegal, hfull⟩, hpc, hfb, hzs, -⟩ := (inv_iff hp).mp hi
  have hbound := pngLen_lt (payloadLen_lt hlegal)
  have hle := hprog.le
  rw [pngLen, ← hfb, ← hzs] at hbound
  have hlive' := liveInv_emitOut hlive (bytes := bytes) (by omega) c ck s.phase
  have hout : FrameProgress (s.out ++ bytes).length s.zs.length := by rwa [List.length_append]
  exact inv_of_phaseInv hp ⟨⟨hlive', hlegal, hfull⟩, hpc, hfb, hzs, hout⟩

theorem inv_emitOut_last (hp : s.phase = .frame) (hi : Inv s) {bytes : List Byte}
    (hlen : s.out.length + bytes.length = pngLen Config.hw s.zs.length) (c ck : Word32) :
    Inv { emitOut bytes s with crc := c, ckOut := ck, phase := .done } := by
  obtain ⟨⟨hlive, hlegal, hfull⟩, hpc, hfb, hzs, -⟩ := (inv_iff hp).mp hi
  have hbound := pngLen_lt (payloadLen_lt hlegal)
  rw [← hfb, ← hzs, ← hlen] at hbound
  have hlive' := liveInv_emitOut hlive hbound c ck .done
  have hout : (s.out ++ bytes).length = pngLen Config.hw s.zs.length := by rwa [List.length_append]
  exact inv_of_phaseInv (p := .done) rfl ⟨⟨hlive', hlegal, hfull⟩, hfb, hzs, hout⟩

/-- An operation of phase FRAME other than the last keeps the invariant if it appends up to a point of R232. -/
theorem inv_advance_emitOut (hp : s.phase = .frame) (hi : Inv s) (hne : i ≠ .pngIend)
    {bytes : List Byte} (hprog : FrameProgress (s.out.length + bytes.length) s.zs.length) {c ck : Word32}
    (ht : t = { emitOut bytes s with crc := c, ckOut := ck }) : Inv (advance i t) := by
  have hphase : t.phase = .frame := by rw [ht, emitOut_phase, hp]
  rw [advance_of_frame hphase, if_neg hne, ht]
  exact inv_emitOut hp hi hprog c ck

/-- The last operation of phase FRAME ends the file and the image (R232). -/
theorem inv_advance_emitOut_last (hp : s.phase = .frame) (hi : Inv s) {bytes : List Byte}
    (hlen : s.out.length + bytes.length = pngLen Config.hw s.zs.length) {c ck : Word32}
    (ht : t = { emitOut bytes s with crc := c, ckOut := ck }) : Inv (advance .pngIend t) := by
  have hphase : t.phase = .frame := by rw [ht, emitOut_phase, hp]
  rw [advance_of_frame hphase, if_pos rfl, ht]
  exact inv_emitOut_last hp hi hlen c ck

theorem inv_advance_nextFrame (hp : s.phase = .frame) (hi : Inv s)
    (h : exec (nextFrame Config.hw s) s = .next t) : Inv (advance (nextFrame Config.hw s) t) := by
  obtain ⟨⟨⟨⟨-, -, hopos, -⟩, -⟩, -⟩, -, -, -, hprog⟩ := (inv_iff hp).mp hi
  unfold nextFrame at h ⊢
  rw [hopos] at h ⊢
  split_ifs at h ⊢ with h0 h8 hmore
  · have ht : t = emitOut pngSignatureBytes s := (Host.Outcome.next.inj h).symm
    exact inv_advance_emitOut hp hi nofun (.inr (.inl (by rw [h0, pngSignatureBytes_length]))) ht
  · simp only [exec, execPngIhdr] at h
    split at h
    · obtain ⟨-, ht⟩ := (frameChunk_eq_next _ _).mp h
      refine inv_advance_emitOut hp hi nofun (.inr (.inr ⟨0, Nat.zero_le _, ?_⟩)) ht
      rw [h8, chunkBytes_length, ihdrPayload_length]
      simp
    · cases h
  · simp only [exec, execPngIdat, idatWith] at h
    split_ifs at h
    obtain ⟨-, ht⟩ := (frameChunk_eq_next _ _).mp h
    refine inv_advance_emitOut hp hi nofun ?_ ht
    rw [chunkBytes_length, idatPiece_length]
    exact hprog.append_piece h0 h8 hmore
  · obtain ⟨-, ht⟩ := (frameChunk_eq_next typeIend []).mp h
    refine inv_advance_emitOut_last hp hi ?_ ht
    rw [chunkBytes_length]
    exact hprog.add_end (not_lt.mp hmore)

/-! One step. -/

/-- Every operation of the block keeps the invariant. -/
theorem operate_inv (hi : Inv s) (h : operate s = .next t) : Inv t := by
  rw [operate_eq_perform] at h
  unfold issue at h
  cases hp : s.phase with
  | decHdr =>
    rw [hp] at h
    exact inv_of_perform_fetch hi (fun i u => inv_advance_header hp hi) h
  | decBody =>
    obtain ⟨-, -, hmore, -⟩ := (inv_iff hp).mp hi
    rw [hp] at h
    simp only [BitVec.lt_def, if_pos hmore] at h
    exact inv_of_perform_fetch hi (fun i u => inv_advance_chunk hp hi) h
  | decEnd =>
    rw [hp] at h
    exact inv_of_perform_fetch hi (fun i u => inv_advance_endMarker hp hi) h
  | filter =>
    rw [hp] at h
    exact inv_of_perform_run hi (fun u => inv_advance_filtRow hp hi) h
  | deflate =>
    rw [hp] at h
    exact inv_of_perform_run hi (fun u hu => .inr (inv_advance_nextDeflate hp hi hu)) h
  | frame =>
    rw [hp] at h
    exact inv_of_perform_run hi (fun u hu => .inr (inv_advance_nextFrame hp hi hu)) h
  | idle | done | error =>
    rw [hp] at h
    cases h
    exact hi

/-- A command keeps the invariant, whenever it comes (R263, R264). -/
theorem exec_ctrl_inv (hsp : codeSpace i = some .ctrl) (hi : Inv s) (h : exec i s = .next t) :
    Inv t := by
  obtain ⟨hinp, -⟩ := hi.common
  rcases codeSpace_eq_ctrl_iff.mp hsp with rfl | rfl
  · rw [exec_start_eq] at h
    split_ifs at h
    · cases h
      exact hi
    · cases h
      exact inv_of_isFresh (.inr rfl) (isFresh_startEffect s) hinp
  · cases h
    exact inv_of_isFresh (.inl rfl) (isFresh_resetEffect s) hinp

/-- What the host may change while no operation runs, the invariant does not look at: ILEN and the bytes of IN. -/
theorem inv_of_not_busy (hbusy : busy s = false) (hi : Inv s) {m : Memory} (hm : Memory.wf m)
    (n : Offset) : Inv { s with inp := m, ilen := n } := by
  obtain ⟨⟨-, hpb⟩, ⟨hcnt, -, hopos⟩, hrest⟩ := hi
  exact ⟨⟨hm, hpb⟩, ⟨hcnt, fun h => absurd (h.symm.trans hbusy) nofun, hopos⟩, hrest⟩

theorem hostMove_inv (m : HostMove) (hi : Inv s) (h : hostMove m s = .next t) : Inv t := by
  cases m with
  | placeIn offset bytes =>
    have hwf := placeIn_wf h hi.common.1
    simp only [hostMove, placeIn] at h
    split_ifs at h with hbusy
    cases h
    exact inv_of_not_busy (by simpa using hbusy) hi hwf s.ilen
  | write r v =>
    by_cases hctrl : r = .ctrl
    · subst hctrl
      rw [hostMove_write_ctrl] at h
      split_ifs at h
      · exact exec_ctrl_inv rfl hi h
      · exact exec_ctrl_inv rfl hi h
      · cases h
        exact hi
    by_cases hilen : r = .ilen
    · subst hilen
      cases h
      unfold writeIlen
      split_ifs with hbusy
      · exact hi
      · exact inv_of_not_busy (by simpa using hbusy) hi hi.common.1 v
    · rw [hostMove_write_readOnly hctrl hilen] at h
      cases h
      exact hi
  | resetInput =>
    cases h
    exact inv_of_isFresh (.inl rfl) (isFresh_resetEffect s) hi.common.1
  | poll => exact operate_inv hi h
  | waitEnd =>
    simp only [hostMove] at h
    split_ifs at h
    · exact operate_inv (s := setHost (.waitEnd :: s.host) s) hi h
    · cases h
      exact hi

end

/-- Settles O54: a step is one operation of the block or one host move, and both keep the invariant. -/
theorem stepKeepsTheInvariant : Obligations.StepKeepsTheInvariant := by
  unfold Obligations.StepKeepsTheInvariant
  intro s t hi h
  cases hhost : s.host with
  | nil =>
    rw [step_eq_operate hhost] at h
    exact operate_inv hi h
  | cons m moves =>
    rw [step_cons hhost] at h
    exact hostMove_inv (s := setHost moves s) m hi h

end Sys2Proof.Machine
namespace Sys2Proof.Machine

/-! Progress (R61, R102, R267): which operations answer a next state whatever the state, and which need the invariant for it. -/

/-- The operation answers a next state: no fault and no refusal. -/
def Answers (x : Result) : Prop := ∃ t, x = .next t

theorem Answers.next (t : State) : Answers (.next t) := ⟨t, rfl⟩

theorem Answers.andThen {x : Result} {f : State → Result} (hx : Answers x)
    (hf : ∀ u, Answers (f u)) : Answers (andThen x f) := by
  obtain ⟨u, rfl⟩ := hx
  exact hf u

section
variable {s : State} {i : Instr}

/-! The decoder's items. -/

theorem answers_withChunk {n : Nat} {k : State → Result} (hk : Answers (k s)) :
    Answers (withChunk n s k) := by
  unfold withChunk
  split_ifs
  · exact .next _
  · exact .next _
  · exact hk

theorem answers_produce (p : Pixel) (hmore : s.pxcnt.toNat < s.pxtotal.toNat) :
    Answers (produce p s) := ⟨_, produce_of_lt p hmore⟩

theorem answers_putPixel (n : Nat) (p : Pixel) (hmore : s.pxcnt.toNat < s.pxtotal.toNat) :
    Answers (putPixel n p s) :=
  (answers_produce p hmore).andThen fun _ => .next _

theorem answers_execIndex (slot : Fin 64) (hmore : s.pxcnt.toNat < s.pxtotal.toNat) :
    Answers (execIndex slot s) := by
  refine answers_withChunk ?_
  exact (answers_produce _ hmore).andThen fun _ => .next _

theorem answers_execRun (count : Nat) (hmore : s.pxcnt.toNat < s.pxtotal.toNat) :
    Answers (execRun count s) := by
  refine answers_withChunk ?_
  split_ifs with hover
  · exact .next _
  · obtain ⟨t, ht, -⟩ := produceMany_of_le s.prev count s (by omega)
    exact .andThen ⟨t, ht⟩ fun _ => .next _

/-- A chunk stops the machine only where no pixel is owed (R102, R127, R139). -/
theorem answers_exec_chunk (hi : codeSpace i = some .chunk)
    (hmore : s.pxcnt.toNat < s.pxtotal.toNat) : Answers (exec i s) := by
  cases i with
  | rgb => exact answers_withChunk (answers_putPixel 4 _ hmore)
  | rgba => exact answers_withChunk (answers_putPixel 5 _ hmore)
  | diff => exact answers_withChunk (answers_putPixel 1 _ hmore)
  | luma => exact answers_withChunk (answers_putPixel 2 _ hmore)
  | index slot => exact answers_execIndex slot hmore
  | run count => exact answers_execRun count hmore
  | _ => cases hi

theorem answers_exec_header (hi : codeSpace i = some .header) : Answers (exec i s) := by
  obtain ⟨m, w, h, c, cs, rfl⟩ := codeSpace_eq_header_iff.mp hi
  exact .next _

theorem answers_exec_endMarker (hi : codeSpace i = some .endMarker) : Answers (exec i s) := by
  obtain ⟨m, rfl⟩ := codeSpace_eq_endMarker_iff.mp hi
  exact .next _

/-! FILT.ROW: the row exists and its pixels hold values. -/

theorem exists_pbReadMany {n : Nat} (hpb : s.pb.map Prod.fst = List.range n) {a k : Nat}
    (hle : a + k ≤ n) : ∃ ps, pbReadMany s a k = some ps := by
  induction k generalizing a with
  | zero => exact ⟨[], rfl⟩
  | succ k ih =>
    obtain ⟨p, hp⟩ := Option.isSome_iff_exists.mp ((pbRead_isSome_iff hpb a).mpr (by omega))
    obtain ⟨ps, hps⟩ := ih (a := a + 1) (by omega)
    exact ⟨p :: ps, by simp only [pbReadMany, hp, hps]⟩

/-- Row `y` of a decoded image lies below `pxtotal` in PB (R63, R182). -/
theorem exists_rawRow (himage : ImageDecoded s) {y : Nat} (hy : y < s.hdrHeight.toNat) :
    ∃ raw, rawRow s y = some raw := by
  obtain ⟨⟨-, hpb, -⟩, ⟨-, -, -, -, -, htotal⟩, hfull⟩ := himage
  have hrow : y * s.hdrWidth.toNat + s.hdrWidth.toNat ≤ s.pxcnt.toNat := by
    rw [hfull, htotal, ← Nat.succ_mul, Nat.mul_comm]
    exact Nat.mul_le_mul_left _ hy
  obtain ⟨ps, hps⟩ := exists_pbReadMany hpb hrow
  exact ⟨_, congrArg (Option.map _) hps⟩

theorem answers_filtRow (himage : ImageDecoded s) (hrow : s.frow.toNat < s.hdrHeight.toNat) :
    Answers (exec .filtRow s) := by
  have emit : Answers (emitRow Config.hw s) := by
    obtain ⟨raw, hraw⟩ := exists_rawRow himage hrow
    have hexists : ¬ s.hdrHeight ≤ s.frow := by simpa [BitVec.le_def] using hrow
    unfold emitRow
    rw [if_neg hexists, hraw]
    exact .next _
  change Answers (filtRowWith Config.hw s)
  rw [filtRowWith_eq]
  split_ifs
  · exact .next _
  · exact .next _
  · exact emit
  · exact emit

/-! DEFLATE and FRAME: the sequencer asks only for blocks and pieces that exist. -/

theorem answers_nextDeflate : Answers (exec (nextDeflate Config.hw s) s) := by
  unfold nextDeflate
  split_ifs with hempty hmore
  · exact .next _
  · exact ⟨_, if_neg (not_le.mpr hmore)⟩
  · exact .next _

theorem answers_frameChunk {ty : Word32} {d : List Byte} (hd : d.length ≤ chunkDataMax) :
    Answers (frameChunk ty d s) :=
  ⟨_, (frameChunk_eq_next ty d).mpr ⟨hd, rfl⟩⟩

/-- No IDAT piece is longer than a chunk may be: IDAT_MAX is R233's bound (R7, R240). -/
theorem idatPiece_hw_length_le (zs : List Byte) (j : Nat) :
    (idatPiece Config.hw zs j).length ≤ chunkDataMax := by
  rw [idatPiece_length]
  exact min_le_left _ _

theorem exists_colorType {c : Byte} (hc : c = 3 ∨ c = 4) : ∃ color, colorType c = some color := by
  rcases hc with rfl | rfl
  · exact ⟨2, rfl⟩
  · exact ⟨6, rfl⟩

theorem answers_nextFrame (hp : s.phase = .frame) (hi : Inv s) :
    Answers (exec (nextFrame Config.hw s) s) := by
  obtain ⟨⟨⟨⟨-, -, hopos, -⟩, -⟩, hlegal, -⟩, -, -, -, hprog⟩ := (inv_iff hp).mp hi
  unfold nextFrame
  rw [hopos]
  split_ifs with h0 h8 hmore
  · exact .next _
  · obtain ⟨color, hcolor⟩ := exists_colorType hlegal.2.2.1
    simp only [exec, execPngIhdr, hcolor]
    refine answers_frameChunk ?_
    rw [ihdrPayload_length]
    decide
  · obtain ⟨j, hpiece, hj, -, -⟩ := hprog.next_piece h0 h8 hmore
    rw [hpiece]
    simp only [exec, execPngIdat, idatWith, if_neg (not_le.mpr hj)]
    exact answers_frameChunk (idatPiece_hw_length_le _ _)
  · exact answers_frameChunk (ty := typeIend) (d := []) (Nat.zero_le _)

/-! One step. -/

theorem answers_perform_run (h : Answers (exec i s)) : Answers (perform (.run i) s) :=
  h.andThen fun _ => .next _

/-- A fetch answers if every item of its code space does: bytes that hold no item raise (R102). -/
theorem answers_perform_fetch {sp : CodeSpace} {a : Nat}
    (hitem : ∀ i, codeSpace i = some sp → Answers (exec i s)) :
    Answers (perform (fetch sp a s) s) := by
  unfold fetch
  cases hd : decode sp (inWindow s a (spaceBytes sp)) with
  | ok item => exact answers_perform_run (hitem item.1 (decode_codeSpace hd))
  | error r => exact .next _

/-- No operation of the block stops a state that meets the invariant. -/
theorem answers_operate (hi : Inv s) : Answers (operate s) := by
  rw [operate_eq_perform]
  unfold issue
  cases hp : s.phase with
  | decHdr => exact answers_perform_fetch fun i => answers_exec_header
  | decBody =>
    obtain ⟨-, -, hmore, -⟩ := (inv_iff hp).mp hi
    simp only [BitVec.lt_def, if_pos hmore]
    exact answers_perform_fetch fun i hsp => answers_exec_chunk hsp hmore
  | decEnd => exact answers_perform_fetch fun i => answers_exec_endMarker
  | filter =>
    obtain ⟨himage, -, hrow, -⟩ := (inv_iff hp).mp hi
    exact answers_perform_run (answers_filtRow himage hrow)
  | deflate => exact answers_perform_run answers_nextDeflate
  | frame => exact answers_perform_run (answers_nextFrame hp hi)
  | idle | done | error => exact .next _

end

/-- Settles O55: each phase runs an operation whose conditions the invariant gives; a poll or a wait lets that operation run, or ends. -/
theorem noOperationStops : Obligations.NoOperationStops := by
  unfold Obligations.NoOperationStops
  rintro s hi (hnone | ⟨moves, hpoll | hwait⟩)
  · rw [step_eq_operate hnone]
    exact answers_operate hi
  · rw [step_cons hpoll]
    exact answers_operate (s := setHost moves s) hi
  · rw [step_cons hwait]
    simp only [hostMove]
    split_ifs
    · exact answers_operate (s := setHost (.waitEnd :: moves) s) hi
    · exact Answers.next _

end Sys2Proof.Machine
namespace Sys2Proof.Machine

/-! A read after a write (R76): the chunks that write the cache, then INDEX. -/

section
variable {s t : State} {i : Instr}

/-- The four writers of the cache are presence checks, then one pixel put (R26, R129). -/
theorem exec_writesCache_eq (hi : WritesCache i) (s : State) :
    ∃ (n : Nat) (p : State → Pixel), exec i s = withChunk n s fun s => putPixel n (p s) s := by
  rcases hi with ⟨r, g, b, rfl⟩ | ⟨r, g, b, a, rfl⟩ | ⟨dr, dg, db, rfl⟩ | ⟨dg, x, y, rfl⟩
  · exact ⟨4, fun s => ⟨r, g, b, s.prev.a⟩, rfl⟩
  · exact ⟨5, fun _ => ⟨r, g, b, a⟩, rfl⟩
  · exact ⟨1, fun s => addDelta s.prev dr dg db, rfl⟩
  · exact ⟨2, fun s => addDelta s.prev (dg + x) dg (dg + y), rfl⟩

theorem exec_writesCache_cases (hi : WritesCache i) (h : exec i s = .next t) :
    RaisedFrom s t ∨ ∃ n p, putPixel n p s = .next t := by
  obtain ⟨n, p, hexec⟩ := exec_writesCache_eq hi s
  rw [hexec] at h
  exact (withChunk_cases h).imp_right fun ⟨_, hput⟩ => ⟨n, p s, hput⟩

theorem RaisedFrom.pxcnt_eq (h : RaisedFrom s t) : t.pxcnt = s.pxcnt := by
  obtain ⟨k, o, e, f, rfl, -, -⟩ := h
  rfl

/-- The pixel just put is in PB, in `prev`, and in its slot of the cache (R22, R127, R129). -/
theorem reads_of_putPixel {n : Nat} {p : Pixel} (h : putPixel n p s = .next t) :
    t.prev = p ∧ pbRead t s.pxcnt.toNat = some p ∧ cacheRead t (hash p) = p := by
  obtain ⟨-, rfl⟩ := (putPixel_eq_next n p).mp h
  refine ⟨rfl, ?_, Vector.getElem_set_self _⟩
  rw [pbRead, Cells.read_write, if_pos rfl]

/-- INDEX of a slot that holds `p`, with its byte there and a pixel owed, puts `p` (R132). -/
theorem exec_index_of_ready {slot : Fin 64} {p : Pixel} (hready : ChunkReady 1 t)
    (hslot : cacheRead t slot = p) :
    ∃ u, exec (.index slot) t = .next u ∧ u.prev = p ∧
      ∀ a, pbRead u a = if a = t.pxcnt.toNat then some p else pbRead t a := by
  have hexec : exec (.index slot) t =
      andThen (produce p t) fun u => .next (advancePc 1 (setPrev p u)) := by
    simp only [exec, execIndex, withChunk_of_ready 1 _ Nat.one_pos hready.1, hslot]
  rw [hexec, produce_of_lt p hready.2, andThen_next]
  exact ⟨_, rfl, rfl, fun a => Cells.read_write ..⟩

end

/-- Settles O17: the chunk put its pixel in `prev`, PB and the cache; INDEX finds it there and writes one more address of PB. -/
theorem cacheWriteIsSeenByTheNextIndex : Obligations.CacheWriteIsSeenByTheNextIndex := by
  unfold Obligations.CacheWriteIsSeenByTheNextIndex
  intro i s t hi h hmade hready
  rcases exec_writesCache_cases hi h with hraise | ⟨n, p, hput⟩
  · exact absurd hraise.pxcnt_eq hmade
  obtain ⟨rfl, hpb, hslot⟩ := reads_of_putPixel hput
  obtain ⟨u, hindex, hprev, hread⟩ := exec_index_of_ready hready hslot
  refine ⟨u, hindex, hprev, ?_, ?_⟩
  · rw [hread, hpb, ite_self]
  · rw [hread, if_pos rfl]

/-! The byte order of the header (R66). -/

theorem toNat_u32be (b0 b1 b2 b3 : Byte) :
    (u32be b0 b1 b2 b3).toNat =
      b0.toNat * 2 ^ 24 + b1.toNat * 2 ^ 16 + b2.toNat * 2 ^ 8 + b3.toNat := by
  have h0 := b0.isLt
  have h1 := b1.isLt
  have h2 := b2.isLt
  have h3 := b3.isLt
  simp only [u32be, beNat, List.foldl_cons, List.foldl_nil, BitVec.toNat_ofNat]
  omega

section
variable {s : State} {w h : Word32} {c cs : Byte}

/-- R141's bound on the bytes of an image bounds its pixels. -/
theorem pixels_lt_of_bytes_lt {n : Nat} (hc : c = 3 ∨ c = 4) (hsize : n * c.toNat < 2 ^ 32) :
    n < 2 ^ 32 := by
  have hchannels : 0 < c.toNat := by rcases hc with rfl | rfl <;> decide
  exact (Nat.le_mul_of_pos_right n hchannels).trans_lt hsize

/-- A header that passes every check of R122 and R141 is latched. -/
theorem exec_header_of_legal (hlen : 14 ≤ s.ilen.toNat) (hw : 0 < w.toNat) (hh : 0 < h.toNat)
    (hc : c = 3 ∨ c = 4) (hcs : cs = 0 ∨ cs = 1) (hsize : w.toNat * h.toNat * c.toNat < 2 ^ 32) :
    exec (.header qoiMagic w h c cs) s =
      .next
        { s with
          hdrWidth := w, hdrHeight := h, hdrChannels := c, hdrColorspace := cs,
          pxtotal := BitVec.ofNat 32 (w.toNat * h.toNat), ipos := 14 } := by
  have hpixels := pixels_lt_of_bytes_lt hc hsize
  have hcapacity : ¬ Config.hw.maxPixels < w.toNat * h.toNat := by
    rw [hw_maxPixels]
    omega
  have hwidth : w ≠ 0 := fun e => hw.ne' (congrArg BitVec.toNat e)
  have hheight : h ≠ 0 := fun e => hh.ne' (congrArg BitVec.toNat e)
  have hlatch : headerWith Config.hw qoiMagic w h c cs s = latchHeader Config.hw w h c cs s := by
    rw [headerWith, if_neg (not_lt.mpr hlen), if_neg (not_not.mpr rfl), if_neg hwidth, if_neg hheight,
      if_neg (by tauto), if_neg (by tauto)]
  simp only [exec, execHeader, hlatch, latchHeader, if_neg (not_le.mpr hsize), if_neg hcapacity]

theorem inWindow_eq_map {f : Nat → Byte} {n : Nat} (hlen : n ≤ s.ilen.toNat)
    (hplaced : ∀ k, k < n → Cells.read s.inp k = some (f k)) :
    inWindow s 0 n = (List.range n).map f := by
  rw [inWindow, Nat.sub_zero, min_eq_left hlen]
  refine List.map_congr_left fun k hk => ?_
  rw [Nat.zero_add]
  exact inByte_of_read (hplaced k (List.mem_range.mp hk))

/-- In DEC_HDR a step runs the header its 14 bytes spell, and an accepted one goes to DEC_BODY (R122, R261). -/
theorem step_of_decode_header {i : Instr} {rest : List Byte} {t : State} (hhost : s.host = [])
    (hp : s.phase = .decHdr) (hd : decode .header (inWindow s 0 14) = .ok (i, rest))
    (h : exec i s = .next t) (ht : t.phase = .decHdr) :
    step s = .next { t with phase := .decBody } := by
  rw [step_eq_operate hhost, operate_eq_perform, issue, hp]
  simp only [fetch, spaceBytes, hd, perform, h, andThen_next, advance_of_decHdr ht]

end

/-- Settles O20: the bytes placed are the window the decoder gets, and `u32be` reads four of them most significant first. -/
theorem headerStepReadsBigEndian : Obligations.HeaderStepReadsBigEndian := by
  unfold Obligations.HeaderStepReadsBigEndian
  intro s f w h hhost hp hlen hplaced hf0 hf1 hf2 hf3 hw hh hw0 hh0 hc hcs hsize
  have hwidth := (toNat_u32be (f 4) (f 5) (f 6) (f 7)).trans hw.symm
  have hheight := (toNat_u32be (f 8) (f 9) (f 10) (f 11)).trans hh.symm
  have hd : decode .header (inWindow s 0 14) =
      .ok (.header qoiMagic (u32be (f 4) (f 5) (f 6) (f 7)) (u32be (f 8) (f 9) (f 10) (f 11))
        (f 12) (f 13), []) := by
    have hmagic : u32be (f 0) (f 1) (f 2) (f 3) = qoiMagic := by
      rw [hf0, hf1, hf2, hf3]
      decide
    rw [inWindow_eq_map hlen hplaced, ← hmagic]
    rfl
  rw [← hwidth] at hw0 hsize ⊢
  rw [← hheight] at hh0 hsize ⊢
  have hexec := exec_header_of_legal hlen hw0 hh0 hc hcs hsize
  have hpixels := pixels_lt_of_bytes_lt hc hsize
  exact ⟨_, step_of_decode_header hhost hp hd hexec hp, rfl, rfl, rfl, rfl, rfl, rfl,
    Nat.mod_eq_of_lt hpixels⟩

end Sys2Proof.Machine
namespace Sys2Proof.Machine

/-! The append-only sequences (R64, R77): which operation extends which of FB, ZS and OUT. -/

/-- FB, ZS and OUT (R64). -/
def sequences (s : State) : List Byte × List Byte × List Byte := (s.fb, s.zs, s.out)

/-- From `s` to `t`, each of FB, ZS and OUT is kept, or extended at its end if phase `p` writes it (R64). -/
def ExtendsIn (p : Phase) (s t : State) : Prop :=
  (t.fb = s.fb ∨ p = .filter ∧ s.fb <+: t.fb) ∧
    (t.zs = s.zs ∨ p = .deflate ∧ s.zs <+: t.zs) ∧
    (t.out = s.out ∨ p = .frame ∧ s.out <+: t.out)

section
variable {s t u : State} {i : Instr} {p : Phase}

theorem ExtendsIn.of_sequences_eq (h : sequences t = sequences s) : ExtendsIn p s t := by
  simp only [sequences, Prod.mk.injEq] at h
  obtain ⟨hfb, hzs, hout⟩ := h
  exact ⟨.inl hfb, .inl hzs, .inl hout⟩

theorem ExtendsIn.refl (p : Phase) (s : State) : ExtendsIn p s s := .of_sequences_eq rfl

theorem ExtendsIn.congr (h : ExtendsIn p s t) (e : sequences u = sequences t) : ExtendsIn p s u := by
  simp only [sequences, Prod.mk.injEq] at e
  obtain ⟨hfb, hzs, hout⟩ := e
  simpa only [ExtendsIn, hfb, hzs, hout] using h

/-- Moving the phase writes none of the three. -/
theorem sequences_advance (i : Instr) (s : State) : sequences (advance i s) = sequences s := by
  unfold advance
  cases s.phase with
  | decBody | filter | deflate | frame =>
    dsimp only
    split_ifs <;> rfl
  | _ => rfl

theorem RaisedFrom.sequences_eq (h : RaisedFrom s t) : sequences t = ([], [], []) := by
  obtain ⟨k, o, e, f, rfl, -, -⟩ := h
  rfl

theorem RaisedFrom.phase_eq (h : RaisedFrom s t) : t.phase = .error := by
  obtain ⟨k, o, e, f, rfl, -, -⟩ := h
  rfl

/-! DP appends to ZS alone, bit by bit (R203, R206). -/

/-- ZS is extended at its end; FB and OUT are kept. -/
def ExtendsZs (s t : State) : Prop := t.fb = s.fb ∧ s.zs <+: t.zs ∧ t.out = s.out

theorem ExtendsZs.refl (s : State) : ExtendsZs s s := ⟨rfl, List.prefix_rfl, rfl⟩

theorem ExtendsZs.trans (h : ExtendsZs s t) (h' : ExtendsZs t u) : ExtendsZs s u := by
  obtain ⟨hfb, hzs, hout⟩ := h
  obtain ⟨hfb', hzs', hout'⟩ := h'
  exact ⟨hfb'.trans hfb, hzs.trans hzs', hout'.trans hout⟩

theorem ExtendsZs.extendsIn (h : ExtendsZs s t) : ExtendsIn .deflate s t := by
  obtain ⟨hfb, hzs, hout⟩ := h
  exact ⟨.inl hfb, .inr ⟨rfl, hzs⟩, .inl hout⟩

theorem extendsZs_emitZs (bytes : List Byte) (s : State) : ExtendsZs s (emitZs bytes s) :=
  ⟨rfl, List.prefix_append _ _, rfl⟩

theorem extendsZs_putBit (b : Bool) (s : State) : ExtendsZs s (putBit b s) := by
  unfold putBit
  dsimp only
  split_ifs
  · exact extendsZs_emitZs _ s
  · exact .refl s

theorem extendsZs_bitsPut (v : BitVec 16) (k : Nat) (s : State) : ExtendsZs s (bitsPut v k s) := by
  unfold bitsPut
  generalize (List.range k).map v.getLsbD = bits
  induction bits generalizing s with
  | nil => exact .refl s
  | cons b bits ih => exact (extendsZs_putBit b s).trans (ih (putBit b s))

theorem extendsZs_bitsAlign (s : State) : ExtendsZs s (bitsAlign s) := by
  unfold bitsAlign
  split_ifs
  · exact .refl s
  · exact extendsZs_emitZs _ s

theorem extendsZs_storedBlock (final : Bool) (piece : List Byte) (s : State) :
    ExtendsZs s (storedBlock final piece s) := by
  have header :=
    ((extendsZs_bitsPut ((BitVec.ofBool final).zeroExtend 16) 1 s).trans
      (extendsZs_bitsPut 0 2 _)).trans (extendsZs_bitsAlign _)
  simp only [storedBlock]
  generalize bitsAlign (bitsPut 0 2 (bitsPut ((BitVec.ofBool final).zeroExtend 16) 1 s)) = u
    at header ⊢
  refine header.trans ⟨rfl, ?_, rfl⟩
  simp only [adlerFeed_zs, emitZs_zs, List.append_assoc]
  exact List.prefix_append _ _

/-! The operations the sequencer issues (R121, R184, R213, R232). -/

theorem TakesChunk.sequences_eq {n : Nat} (h : TakesChunk n s t) : sequences t = sequences s := by
  obtain ⟨pb, cnt, cache, prev, rfl, -, -⟩ := h
  rfl

/-- An item of IN writes none of the three, unless it raises (R64). -/
theorem exec_item_sequences {sp : CodeSpace} (hsp : sp ≠ .ctrl) (hi : codeSpace i = some sp)
    (h : exec i s = .next t) : RaisedFrom s t ∨ sequences t = sequences s := by
  cases sp with
  | chunk => exact (exec_chunk_cases hi h).imp_right TakesChunk.sequences_eq
  | header =>
    obtain ⟨m, w, ht, c, cs, rfl⟩ := codeSpace_eq_header_iff.mp hi
    refine (exec_header_cases h).imp_right fun ⟨_, _, hu⟩ => ?_
    rw [hu]
    rfl
  | endMarker =>
    obtain ⟨m, rfl⟩ := codeSpace_eq_endMarker_iff.mp hi
    refine (exec_endMarker_cases h).imp_right fun ⟨_, hu⟩ => ?_
    rw [hu]
    rfl
  | ctrl => exact absurd rfl hsp

theorem exec_filtRow_extends (h : exec .filtRow s = .next t) :
    RaisedFrom s t ∨ ExtendsIn .filter s t := by
  refine (exec_filtRow_cases h).imp_right fun hrow => ?_
  obtain ⟨raw, -, -, rfl⟩ := emitRow_hw_eq_next hrow
  exact ⟨.inr ⟨rfl, List.prefix_append _ _⟩, .inl rfl, .inl rfl⟩

theorem exec_nextDeflate_extends (h : exec (nextDeflate Config.hw s) s = .next t) :
    ExtendsIn .deflate s t := by
  refine ExtendsZs.extendsIn ?_
  unfold nextDeflate at h
  split_ifs at h
  · cases h
    exact extendsZs_emitZs _ s
  · simp only [exec, execDeflateStored, deflateStoredWith] at h
    split_ifs at h
    cases h
    exact extendsZs_storedBlock _ _ s
  · cases h
    exact extendsZs_emitZs _ { s with ckOut := adler32 s.fb }

theorem extendsIn_frame_of_emitOut {bytes : List Byte} {c ck : Word32}
    (h : t = { emitOut bytes s with crc := c, ckOut := ck }) : ExtendsIn .frame s t := by
  subst h
  exact ⟨.inl rfl, .inl rfl, .inr ⟨rfl, List.prefix_append _ _⟩⟩

theorem frameChunk_extends {ty : Word32} {d : List Byte} (h : frameChunk ty d s = .next t) :
    ExtendsIn .frame s t :=
  extendsIn_frame_of_emitOut ((frameChunk_eq_next ty d).mp h).2

theorem exec_nextFrame_extends (h : exec (nextFrame Config.hw s) s = .next t) :
    ExtendsIn .frame s t := by
  unfold nextFrame at h
  split_ifs at h
  · cases h
    exact extendsIn_frame_of_emitOut (c := s.crc) (ck := s.ckOut) rfl
  · simp only [exec, execPngIhdr] at h
    split at h
    · exact frameChunk_extends h
    · cases h
  · simp only [exec, execPngIdat, idatWith] at h
    split_ifs at h
    exact frameChunk_extends h
  · exact frameChunk_extends (ty := typeIend) (d := []) h

/-! One step. -/

theorem perform_run_extends (hop : ∀ u, exec i s = .next u → RaisedFrom s u ∨ ExtendsIn p s u)
    (h : perform (.run i) s = .next t) : RaisedFrom s t ∨ ExtendsIn p s t := by
  obtain ⟨u, hexec, hadvance⟩ := andThen_eq_next.mp h
  cases hadvance
  rcases hop u hexec with hraise | hext
  · rw [advance_of_raised hraise]
    exact .inl hraise
  · exact .inr (hext.congr (sequences_advance i u))

theorem perform_fetch_extends {sp : CodeSpace} (hsp : sp ≠ .ctrl) {a : Nat}
    (h : perform (fetch sp a s) s = .next t) : RaisedFrom s t ∨ ExtendsIn p s t := by
  unfold fetch at h
  cases hd : decode sp (inWindow s a (spaceBytes sp)) with
  | ok item =>
    rw [hd] at h
    exact perform_run_extends
      (fun u hu => (exec_item_sequences hsp (decode_codeSpace hd) hu).imp_right .of_sequences_eq) h
  | error r =>
    rw [hd] at h
    cases h
    rcases raiseReject_cases r s with heq | hraise
    · rw [heq]
      exact .inr (.refl p s)
    · exact .inl hraise

/-- An operation of the block raises, or extends the sequence of its phase (R64, R300). -/
theorem operate_extends (h : operate s = .next t) : RaisedFrom s t ∨ ExtendsIn s.phase s t := by
  rw [operate_eq_perform] at h
  unfold issue at h
  cases hp : s.phase with
  | decHdr =>
    rw [hp] at h
    exact perform_fetch_extends (sp := .header) nofun h
  | decBody =>
    rw [hp] at h
    dsimp only at h
    split_ifs at h
    · exact perform_fetch_extends (sp := .chunk) nofun h
    · cases h
      exact .inr (.of_sequences_eq rfl)
  | decEnd =>
    rw [hp] at h
    exact perform_fetch_extends (sp := .endMarker) nofun h
  | filter =>
    rw [hp] at h
    exact perform_run_extends (fun u => exec_filtRow_extends) h
  | deflate =>
    rw [hp] at h
    exact perform_run_extends (fun u hu => .inr (exec_nextDeflate_extends hu)) h
  | frame =>
    rw [hp] at h
    exact perform_run_extends (fun u hu => .inr (exec_nextFrame_extends hu)) h
  | idle | done | error =>
    rw [hp] at h
    cases h
    exact .inr (.refl _ s)

theorem operate_of_error (hp : s.phase = .error) : operate s = .next s := by
  rw [operate_eq_perform, issue, hp]
  rfl

/-- What empties the three in an operation is a raise, which ERROR never makes (R300, R305). -/
theorem operate_empties_or_extends {moves : List HostMove}
    (h : operate (setHost moves s) = .next t) :
    MayEmpty s t ∧ sequences t = ([], [], []) ∨ ExtendsIn s.phase s t := by
  by_cases hp : s.phase = .error
  · rw [operate_of_error (s := setHost moves s) hp] at h
    cases h
    exact .inr (.of_sequences_eq rfl)
  · exact (operate_extends h).imp_left fun hraise =>
      ⟨.inl ⟨hp, hraise.phase_eq⟩, hraise.sequences_eq⟩

/-- A write of CTRL empties the three by SRESET or by a START that is accepted (R36, R321, R322). -/
theorem write_ctrl_empties_or_extends {v : Word64} (h : hostMove (.write .ctrl v) s = .next t) :
    (v.getLsbD 1 = true ∨ v.getLsbD 0 = true ∧ busy s = false) ∧ sequences t = ([], [], []) ∨
      ExtendsIn s.phase s t := by
  rw [hostMove_write_ctrl, exec_start_eq] at h
  split_ifs at h with hsreset hstart hbusy
  · cases h
    exact .inl ⟨.inl hsreset, rfl⟩
  · cases h
    exact .inr (.refl _ s)
  · cases h
    exact .inl ⟨.inr ⟨hstart, by simpa using hbusy⟩, rfl⟩
  · cases h
    exact .inr (.refl _ s)

/-- A host move empties the three by a command or a reset, lets an operation run, or leaves them (R270, R320). -/
theorem hostMove_empties_or_extends {m : HostMove} {moves : List HostMove} (hhost : s.host = m :: moves)
    (h : hostMove m (setHost moves s) = .next t) :
    MayEmpty s t ∧ sequences t = ([], [], []) ∨ ExtendsIn s.phase s t := by
  cases m with
  | placeIn offset bytes =>
    simp only [hostMove, placeIn] at h
    split_ifs at h
    cases h
    exact .inr (.of_sequences_eq rfl)
  | write r v =>
    by_cases hctrl : r = .ctrl
    · subst hctrl
      exact (write_ctrl_empties_or_extends h).imp_left fun ⟨hcmd, hempty⟩ =>
        ⟨.inr ⟨_, moves, hhost, .inr ⟨v, rfl, hcmd⟩⟩, hempty⟩
    by_cases hilen : r = .ilen
    · subst hilen
      simp only [hostMove, writeIlen_eq] at h
      cases h
      exact .inr (.of_sequences_eq rfl)
    · rw [hostMove_write_readOnly hctrl hilen] at h
      cases h
      exact .inr (.of_sequences_eq rfl)
  | resetInput =>
    cases h
    exact .inl ⟨.inr ⟨_, moves, hhost, .inl rfl⟩, rfl⟩
  | poll => exact operate_empties_or_extends h
  | waitEnd =>
    simp only [hostMove] at h
    split_ifs at h
    · exact operate_empties_or_extends (moves := .waitEnd :: moves) h
    · cases h
      exact .inr (.of_sequences_eq rfl)

theorem step_empties_or_extends (h : step s = .next t) :
    MayEmpty s t ∧ sequences t = ([], [], []) ∨ ExtendsIn s.phase s t := by
  cases hhost : s.host with
  | nil =>
    rw [step_eq_operate hhost] at h
    exact operate_empties_or_extends (moves := s.host) h
  | cons m moves =>
    rw [step_cons hhost] at h
    exact hostMove_empties_or_extends hhost h

end

/-- Settles O31: a step empties all three, where it may, or extends at most the sequence of its phase. -/
theorem sequencesOnlyGrow : Obligations.SequencesOnlyGrow := by
  unfold Obligations.SequencesOnlyGrow
  intro s t h
  rcases step_empties_or_extends h with ⟨hmay, hempty⟩ | ⟨hfb, hzs, hout⟩
  · simp only [sequences, Prod.mk.injEq] at hempty
    obtain ⟨hfb, hzs, hout⟩ := hempty
    exact ⟨.inr (.inl ⟨hfb, hmay⟩), .inr (.inl ⟨hzs, hmay⟩), .inr (.inl ⟨hout, hmay⟩)⟩
  · exact ⟨hfb.imp_right .inr, hzs.imp_right .inr, hout.imp_right .inr⟩

end Sys2Proof.Machine
namespace Sys2Proof.Machine

/-! The encodings (R90 to R105): each chunk with the numbers its bytes hold. Encoder and decoder are both compared with this table, never with each other. -/

/-- `ChunkSpelling i bytes`: the row of R101 for the chunk `i` writes `bytes`; biased fields as in R100. -/
inductive ChunkSpelling : Instr → List Byte → Prop
  /-- R92. -/
  | rgb (r g b : Byte) : ChunkSpelling (.rgb r g b) [0xFE, r, g, b]
  /-- R93. -/
  | rgba (r g b a : Byte) : ChunkSpelling (.rgba r g b a) [0xFF, r, g, b, a]
  /-- R94. -/
  | index {b1 : Byte} {slot : Fin 64} (hlead : b1.toNat = slot.val) :
      ChunkSpelling (.index slot) [b1]
  /-- R95. -/
  | diff {b1 : Byte} {r g b : Nat} (hr : r < 4) (hg : g < 4) (hb : b < 4)
      (hlead : b1.toNat = 0x40 + 16 * r + 4 * g + b) :
      ChunkSpelling (.diff ((r : Int) - 2) ((g : Int) - 2) ((b : Int) - 2)) [b1]
  /-- R96. -/
  | luma {b1 b2 : Byte} {g x y : Nat} (hg : g < 64) (hx : x < 16) (hy : y < 16)
      (hlead : b1.toNat = 0x80 + g) (hsecond : b2.toNat = 16 * x + y) :
      ChunkSpelling (.luma ((g : Int) - 32) ((x : Int) - 8) ((y : Int) - 8)) [b1, b2]
  /-- R97. -/
  | run {b1 : Byte} {count : Nat} (hcount : 1 ≤ count ∧ count ≤ 62) (hlead : b1.toNat = 0xBF + count) :
      ChunkSpelling (.run count) [b1]

/-! Fields of a byte. -/

theorem toNat_extractLsb'_eq_div {w : Nat} (v : BitVec w) (lo n : Nat) :
    (v.extractLsb' lo n).toNat = v.toNat / 2 ^ lo % 2 ^ n := by
  rw [BitVec.extractLsb'_toNat, Nat.shiftRight_eq_div_pow]

theorem bits_eq_div (v : Byte) (hi lo : Nat) :
    bits v hi lo = v.toNat / 2 ^ lo % 2 ^ (hi - lo + 1) := by
  rw [bits, Nat.shiftRight_eq_div_pow]

theorem ofNat_eq_of_toNat {b : Byte} {n : Nat} (h : b.toNat = n) : BitVec.ofNat 8 n = b := by
  rw [← h, BitVec.ofNat_toNat, BitVec.setWidth_eq]

/-- Fields that do not overlap are added by `|||`. -/
theorem shiftLeft_or_eq_add (f : Nat) {k v : Nat} (hv : v < 2 ^ k) : f <<< k ||| v = 2 ^ k * f + v := by
  rw [← Nat.shiftLeft_add_eq_or_of_lt hv, Nat.shiftLeft_eq, Nat.mul_comm]

/-- The lead byte of DIFF as the encoder writes it (R95). -/
theorem diffLead_eq_add {r g b : Nat} (hr : r < 4) (hg : g < 4) (hb : b < 4) :
    0x40 ||| r <<< 4 ||| g <<< 2 ||| b = 0x40 + 16 * r + 4 * g + b := by
  calc
    0x40 ||| r <<< 4 ||| g <<< 2 ||| b = 1 <<< 6 ||| (r <<< 4 ||| (g <<< 2 ||| b)) := by
      rw [Nat.or_assoc, Nat.or_assoc]
      rfl
    _ = 2 ^ 6 * 1 + (2 ^ 4 * r + (2 ^ 2 * g + b)) := by
      rw [shiftLeft_or_eq_add g hb, shiftLeft_or_eq_add r (by omega), shiftLeft_or_eq_add 1 (by omega)]
    _ = 0x40 + 16 * r + 4 * g + b := by omega

/-- Below FE the lead byte is told by its top two bits (R91, R101). -/
theorem lead_ne_of_toNat_lt {b1 : Byte} (h : b1.toNat < 0xFE) : b1 ≠ 0xFE ∧ b1 ≠ 0xFF := by
  constructor
  · rintro rfl
    exact absurd h (by decide)
  · rintro rfl
    exact absurd h (by decide)

namespace ChunkSpelling
variable {i : Instr} {bytes : List Byte} {b1 b2 : Byte}

/-- The encoder writes the spelling. -/
theorem encode_eq (h : ChunkSpelling i bytes) : encode i = bytes := by
  cases h with
  | rgb | rgba => rfl
  | index hlead => rw [encode, ofNat_eq_of_toNat hlead]
  | diff hr hg hb hlead =>
    rw [← diffLead_eq_add hr hg hb] at hlead
    simp only [encode, Int.sub_add_cancel, Int.toNat_natCast, ofNat_eq_of_toNat hlead]
  | @luma _ _ g x y hg hx hy hlead hsecond =>
    have hfirst : 0x80 ||| g = 0x80 + g := shiftLeft_or_eq_add 1 (k := 7) (by omega)
    have hnibbles : x <<< 4 ||| y = 16 * x + y := shiftLeft_or_eq_add x hy
    rw [← hfirst] at hlead
    rw [← hnibbles] at hsecond
    simp only [encode, Int.sub_add_cancel, Int.toNat_natCast, ofNat_eq_of_toNat hlead,
      ofNat_eq_of_toNat hsecond]
  | @run _ count hcount hlead =>
    have hfirst : 0xC0 ||| (count - 1) = 0xBF + count :=
      (shiftLeft_or_eq_add 3 (k := 6) (by omega)).trans (by omega)
    rw [← hfirst] at hlead
    rw [encode, ofNat_eq_of_toNat hlead]

theorem wellFormed (h : ChunkSpelling i bytes) : WellFormed i := by
  cases h with
  | rgb | rgba | index => rfl
  | diff | luma => exact decide_eq_true (by omega)
  | run hcount => exact decide_eq_true hcount

/-- The decoder reads the spelling, whatever follows it. -/
theorem decode_append (h : ChunkSpelling i bytes) (rest : List Byte) :
    decode .chunk (bytes ++ rest) = .ok (i, rest) := by
  cases h with
  | rgb | rgba => rfl
  | @index b1 slot hlead =>
    obtain ⟨hfe, hff⟩ := lead_ne_of_toNat_lt (b1 := b1) (by omega)
    have htag : bits b1 7 6 = 0 := by rw [bits_eq_div]; omega
    have hslot : bits b1 5 0 = slot := by rw [bits_eq_div]; omega
    change decodeLead b1 rest = _
    rw [decodeLead, if_neg hfe, if_neg hff, if_pos htag, hslot, Fin.ofNat_val_eq_self]
  | @diff b1 r g b hr hg hb hlead =>
    obtain ⟨hfe, hff⟩ := lead_ne_of_toNat_lt (b1 := b1) (by omega)
    have htag : bits b1 7 6 = 1 := by rw [bits_eq_div]; omega
    have hfield_r : bits b1 5 4 = r := by rw [bits_eq_div]; omega
    have hfield_g : bits b1 3 2 = g := by rw [bits_eq_div]; omega
    have hfield_b : bits b1 1 0 = b := by rw [bits_eq_div]; omega
    change decodeLead b1 rest = _
    rw [decodeLead, if_neg hfe, if_neg hff, htag, if_neg (by decide), if_pos rfl, hfield_r,
      hfield_g, hfield_b]
    rfl
  | @luma b1 b2 g x y hg hx hy hlead hsecond =>
    obtain ⟨hfe, hff⟩ := lead_ne_of_toNat_lt (b1 := b1) (by omega)
    have htag : bits b1 7 6 = 2 := by rw [bits_eq_div]; omega
    have hfield_g : bits b1 5 0 = g := by rw [bits_eq_div]; omega
    have hfield_x : bits b2 7 4 = x := by rw [bits_eq_div]; omega
    have hfield_y : bits b2 3 0 = y := by rw [bits_eq_div]; omega
    change decodeLead b1 (b2 :: rest) = _
    rw [decodeLead, if_neg hfe, if_neg hff, htag, if_neg (by decide), if_neg (by decide),
      if_pos rfl, decodeLuma, hfield_g, hfield_x, hfield_y]
    rfl
  | @run b1 count hcount hlead =>
    obtain ⟨hfe, hff⟩ := lead_ne_of_toNat_lt (b1 := b1) (by omega)
    have htag : bits b1 7 6 = 3 := by rw [bits_eq_div]; omega
    have hfield : bits b1 5 0 + 1 = count := by rw [bits_eq_div]; omega
    change decodeLead b1 rest = _
    rw [decodeLead, if_neg hfe, if_neg hff, htag, if_neg (by decide), if_neg (by decide),
      if_neg (by decide), hfield]

/-! The spelling that a lead byte begins, its operands by bit position. -/

theorem index_of_lead (h : b1.toNat < 0x40) : ChunkSpelling (.index ⟨b1.toNat, h⟩) [b1] := .index rfl

theorem diff_of_lead (h : 0x40 ≤ b1.toNat ∧ b1.toNat ≤ 0x7F) :
    ChunkSpelling
      (.diff ((b1.extractLsb' 4 2).toNat - 2) ((b1.extractLsb' 2 2).toNat - 2)
        ((b1.extractLsb' 0 2).toNat - 2)) [b1] := by
  refine .diff (BitVec.isLt _) (BitVec.isLt _) (BitVec.isLt _) ?_
  simp only [toNat_extractLsb'_eq_div]
  omega

theorem luma_of_lead (h : 0x80 ≤ b1.toNat ∧ b1.toNat ≤ 0xBF) (b2 : Byte) :
    ChunkSpelling
      (.luma ((b1.extractLsb' 0 6).toNat - 32) ((b2.extractLsb' 4 4).toNat - 8)
        ((b2.extractLsb' 0 4).toNat - 8)) [b1, b2] := by
  refine .luma (BitVec.isLt _) (BitVec.isLt _) (BitVec.isLt _) ?_ ?_
  · simp only [toNat_extractLsb'_eq_div]
    omega
  · simp only [toNat_extractLsb'_eq_div]
    omega

theorem run_of_lead (h : 0xC0 ≤ b1.toNat ∧ b1.toNat ≤ 0xFD) :
    ChunkSpelling (.run (b1.toNat - 0xBF)) [b1] :=
  .run (by omega) (by omega)

end ChunkSpelling

/-- An operand in its range is a field less its bias (R100). -/
theorem exists_field_of_range {x : Int} (bias size : Nat) (h : -bias ≤ x ∧ x < size - bias) :
    ∃ f : Nat, f < size ∧ x = f - bias :=
  ⟨(x + bias).toNat, by omega, by omega⟩

/-- The operands of a well-formed chunk fit its fields (R100, R105). -/
theorem exists_chunkSpelling {i : Instr} (hwf : WellFormed i) (hsp : codeSpace i = some .chunk) :
    ∃ bytes, ChunkSpelling i bytes := by
  cases i with
  | rgb r g b => exact ⟨_, .rgb r g b⟩
  | rgba r g b a => exact ⟨_, .rgba r g b a⟩
  | index slot => exact ⟨_, .index (b1 := BitVec.ofNatLT slot.val (by omega)) rfl⟩
  | diff dr dg db =>
    have hrange := of_decide_eq_true hwf
    obtain ⟨r, hr, rfl⟩ := exists_field_of_range (x := dr) 2 4 (by omega)
    obtain ⟨g, hg, rfl⟩ := exists_field_of_range (x := dg) 2 4 (by omega)
    obtain ⟨b, hb, rfl⟩ := exists_field_of_range (x := db) 2 4 (by omega)
    exact ⟨_, .diff (b1 := BitVec.ofNatLT (0x40 + 16 * r + 4 * g + b) (by omega)) hr hg hb rfl⟩
  | luma dg dx dy =>
    have hrange := of_decide_eq_true hwf
    obtain ⟨g, hg, rfl⟩ := exists_field_of_range (x := dg) 32 64 (by omega)
    obtain ⟨x, hx, rfl⟩ := exists_field_of_range (x := dx) 8 16 (by omega)
    obtain ⟨y, hy, rfl⟩ := exists_field_of_range (x := dy) 8 16 (by omega)
    exact ⟨_, .luma (b1 := BitVec.ofNatLT (0x80 + g) (by omega))
      (b2 := BitVec.ofNatLT (16 * x + y) (by omega)) hg hx hy rfl rfl⟩
  | run count =>
    have hrange := of_decide_eq_true hwf
    exact ⟨_, .run (b1 := BitVec.ofNatLT (0xBF + count) (by omega)) hrange rfl⟩
  | _ => cases hsp

/-! Every stream begins with a spelling, or is cut inside its first chunk (R102, R104, R126). -/

theorem decodeRgb_of_short {t : List Byte} (h : t.length < 3) :
    decodeRgb t = .error (.truncatedChunk 4 (t.length + 1)) := by
  unfold decodeRgb
  split
  · simp only [List.length_cons] at h
    omega
  · rfl

theorem decodeRgba_of_short {t : List Byte} (h : t.length < 4) :
    decodeRgba t = .error (.truncatedChunk 5 (t.length + 1)) := by
  unfold decodeRgba
  split
  · simp only [List.length_cons] at h
    omega
  · rfl

theorem decode_chunk_of_short {b1 : Byte} {t : List Byte} (h : t.length + 1 < chunkLen b1) :
    decode .chunk (b1 :: t) = .error (.truncatedChunk (chunkLen b1) (t.length + 1)) := by
  change decodeLead b1 t = _
  unfold chunkLen at h ⊢
  split_ifs at h ⊢ with hfe hff htag
  · rw [decodeLead, if_pos hfe, decodeRgb_of_short (by omega)]
  · rw [decodeLead, if_neg hfe, if_pos hff, decodeRgba_of_short (by omega)]
  · obtain rfl : t = [] := List.length_eq_zero_iff.mp (by omega)
    rw [decodeLead, if_neg hfe, if_neg hff, htag]
    rfl
  · omega

theorem exists_three_bytes {t : List Byte} (h : 3 ≤ t.length) :
    ∃ r g b, t = r :: g :: b :: t.drop 3 :=
  match t, h with
  | r :: g :: b :: _, _ => ⟨r, g, b, rfl⟩

theorem exists_four_bytes {t : List Byte} (h : 4 ≤ t.length) :
    ∃ r g b a, t = r :: g :: b :: a :: t.drop 4 :=
  match t, h with
  | r :: g :: b :: a :: _, _ => ⟨r, g, b, a, rfl⟩

theorem exists_byte {t : List Byte} (h : 1 ≤ t.length) : ∃ b2, t = b2 :: t.drop 1 :=
  match t, h with
  | b2 :: _, _ => ⟨b2, rfl⟩

/-- With `chunkLen` bytes there, they spell a chunk: there is no illegal lead byte (R102, R104). -/
theorem exists_chunkSpelling_of_lead {b1 : Byte} {t : List Byte} (h : chunkLen b1 ≤ t.length + 1) :
    ∃ i, ChunkSpelling i (b1 :: t.take (chunkLen b1 - 1)) := by
  unfold chunkLen at h ⊢
  split_ifs at h ⊢ with hfe hff htag
  · obtain ⟨r, g, b, ht⟩ := exists_three_bytes (t := t) (by omega)
    rw [hfe, ht]
    exact ⟨_, .rgb r g b⟩
  · obtain ⟨r, g, b, a, ht⟩ := exists_four_bytes (t := t) (by omega)
    rw [hff, ht]
    exact ⟨_, .rgba r g b a⟩
  · obtain ⟨b2, ht⟩ := exists_byte (t := t) (by omega)
    rw [bits_eq_div] at htag
    rw [ht]
    exact ⟨_, .luma_of_lead (by omega) b2⟩
  · have hlow : b1.toNat ≠ 0xFE ∧ b1.toNat ≠ 0xFF :=
      ⟨fun e => hfe (BitVec.eq_of_toNat_eq e), fun e => hff (BitVec.eq_of_toNat_eq e)⟩
    rw [bits_eq_div] at htag
    by_cases hindex : b1.toNat < 0x40
    · exact ⟨_, .index_of_lead hindex⟩
    by_cases hdiff : b1.toNat < 0x80
    · exact ⟨_, .diff_of_lead (by omega)⟩
    · exact ⟨_, .run_of_lead (by omega)⟩

/-- The first chunk of a stream that holds it whole: its spelling, and what the decoder answers. -/
theorem decode_chunk_of_le_length {b1 : Byte} {t : List Byte} (h : chunkLen b1 ≤ t.length + 1) :
    ∃ i, ChunkSpelling i (b1 :: t.take (chunkLen b1 - 1)) ∧
      decode .chunk (b1 :: t) = .ok (i, t.drop (chunkLen b1 - 1)) := by
  obtain ⟨i, hi⟩ := exists_chunkSpelling_of_lead h
  refine ⟨i, hi, ?_⟩
  have hdecode := hi.decode_append (t.drop (chunkLen b1 - 1))
  rwa [List.cons_append, List.take_append_drop] at hdecode

/-- What the chunk decoder reads is the spelling of a chunk. -/
theorem chunkSpelling_of_decode {i : Instr} {bytes rest : List Byte}
    (h : decode .chunk bytes = .ok (i, rest)) :
    ∃ chunk, ChunkSpelling i chunk ∧ chunk ++ rest = bytes := by
  cases bytes with
  | nil => cases h
  | cons b1 t =>
    rcases Nat.lt_or_ge (t.length + 1) (chunkLen b1) with hshort | hlong
    · rw [decode_chunk_of_short hshort] at h
      cases h
    · obtain ⟨j, hj, hdecode⟩ := decode_chunk_of_le_length hlong
      rw [hdecode] at h
      cases h
      exact ⟨_, hj, congrArg (b1 :: ·) (List.take_append_drop ..)⟩

/-! Big-endian words: HEADER's fields (R66, R98) and the end marker (R99). -/

theorem toNat_u64be (b0 b1 b2 b3 b4 b5 b6 b7 : Byte) :
    (u64be b0 b1 b2 b3 b4 b5 b6 b7).toNat =
      b0.toNat * 2 ^ 56 + b1.toNat * 2 ^ 48 + b2.toNat * 2 ^ 40 + b3.toNat * 2 ^ 32 +
        b4.toNat * 2 ^ 24 + b5.toNat * 2 ^ 16 + b6.toNat * 2 ^ 8 + b7.toNat := by
  simp only [u64be, beNat, List.foldl_cons, List.foldl_nil, BitVec.toNat_ofNat]
  omega

theorem be32_u32be (b0 b1 b2 b3 : Byte) : be32 (u32be b0 b1 b2 b3) = [b0, b1, b2, b3] := by
  simp only [be32, List.cons.injEq, ← BitVec.toNat_inj, toNat_extractLsb'_eq_div, toNat_u32be, and_true]
  omega

theorem be64_u64be (b0 b1 b2 b3 b4 b5 b6 b7 : Byte) :
    be64 (u64be b0 b1 b2 b3 b4 b5 b6 b7) = [b0, b1, b2, b3, b4, b5, b6, b7] := by
  simp only [be64, List.cons.injEq, ← BitVec.toNat_inj, toNat_extractLsb'_eq_div, toNat_u64be, and_true]
  omega

theorem u32be_be32 (v : Word32) :
    u32be (v.extractLsb' 24 8) (v.extractLsb' 16 8) (v.extractLsb' 8 8) (v.extractLsb' 0 8) = v := by
  simp only [← BitVec.toNat_inj, toNat_u32be, toNat_extractLsb'_eq_div]
  omega

theorem u64be_be64 (v : Word64) :
    u64be (v.extractLsb' 56 8) (v.extractLsb' 48 8) (v.extractLsb' 40 8) (v.extractLsb' 32 8)
      (v.extractLsb' 24 8) (v.extractLsb' 16 8) (v.extractLsb' 8 8) (v.extractLsb' 0 8) = v := by
  simp only [← BitVec.toNat_inj, toNat_u64be, toNat_extractLsb'_eq_div]
  omega

theorem decode_encode_header (magic w h : Word32) (c cs : Byte) (rest : List Byte) :
    decode .header (encode (.header magic w h c cs) ++ rest) = .ok (.header magic w h c cs, rest) := by
  change decodeHeader (be32 magic ++ be32 w ++ be32 h ++ [c, cs] ++ rest) = _
  simp only [be32, List.cons_append, List.nil_append, decodeHeader, u32be_be32]

theorem decode_encode_endMarker (marker : Word64) (rest : List Byte) :
    decode .endMarker (encode (.endMarker marker) ++ rest) = .ok (.endMarker marker, rest) := by
  change decodeEnd (be64 marker ++ rest) = _
  simp only [be64, List.cons_append, List.nil_append, decodeEnd, u64be_be64]

theorem encode_of_decode_header {i : Instr} {bytes rest : List Byte}
    (h : decode .header bytes = .ok (i, rest)) : encode i ++ rest = bytes := by
  change decodeHeader bytes = _ at h
  unfold decodeHeader at h
  split at h <;> cases h
  simp only [encode, be32_u32be, List.cons_append, List.nil_append]

theorem encode_of_decode_endMarker {i : Instr} {bytes rest : List Byte}
    (h : decode .endMarker bytes = .ok (i, rest)) : encode i ++ rest = bytes := by
  change decodeEnd bytes = _ at h
  unfold decodeEnd at h
  split at h <;> cases h
  simp only [encode, be64_u64be, List.cons_append, List.nil_append]

/-- Settles O1: a chunk is decoded from its spelling, a header and a marker from their big-endian words, a command from its bit of CTRL. -/
theorem encodedInstructionsDecodeBack : Obligations.EncodedInstructionsDecodeBack := by
  unfold Obligations.EncodedInstructionsDecodeBack
  intro i sp rest hwf hsp
  cases sp with
  | header =>
    cases i with
    | header magic w h c cs => exact decode_encode_header magic w h c cs rest
    | _ => cases hsp
  | chunk =>
    obtain ⟨bytes, hbytes⟩ := exists_chunkSpelling hwf hsp
    rw [hbytes.encode_eq]
    exact hbytes.decode_append rest
  | endMarker =>
    cases i with
    | endMarker marker => exact decode_encode_endMarker marker rest
    | _ => cases hsp
  | ctrl =>
    cases i with
    | start | sreset => rfl
    | _ => cases hsp

/-- Settles O2: what a chunk decodes from is its spelling, and the encoder writes the spelling; a big-endian word has one byte sequence. -/
theorem decodedBytesEncodeBack : Obligations.DecodedBytesEncodeBack := by
  unfold Obligations.DecodedBytesEncodeBack
  intro sp bytes rest i hsp h
  refine ⟨decode_codeSpace h, ?_⟩
  cases sp with
  | header => exact ⟨encode_of_decode_header h, nofun⟩
  | chunk =>
    obtain ⟨chunk, hchunk, hbytes⟩ := chunkSpelling_of_decode h
    rw [hchunk.encode_eq]
    exact ⟨hbytes, fun _ => hchunk.wellFormed⟩
  | endMarker => exact ⟨encode_of_decode_endMarker h, nofun⟩
  | ctrl => exact absurd rfl hsp

/-- Settles O3: each range of lead bytes has its spelling, and the decoder reads it. -/
theorem leadByteSelectsChunk : Obligations.LeadByteSelectsChunk := by
  unfold Obligations.LeadByteSelectsChunk
  intro b1 t ht
  refine ⟨fun h => ?_, fun h => ?_, fun h => ?_, fun h => ?_, fun h => ?_, fun h => ?_⟩
  · have hindex := ChunkSpelling.index_of_lead (Nat.lt_succ_of_le h)
    exact ⟨_, rfl, hindex.decode_append t⟩
  · exact (ChunkSpelling.diff_of_lead h).decode_append t
  · obtain ⟨b2, hb2⟩ := exists_byte (t := t) (by omega)
    refine ⟨b2, hb2, ?_⟩
    conv_lhs => rw [hb2]
    exact (ChunkSpelling.luma_of_lead h b2).decode_append (t.drop 1)
  · exact (ChunkSpelling.run_of_lead h).decode_append t
  · obtain ⟨r, g, b, hrgb⟩ := exists_three_bytes (t := t) (by omega)
    refine ⟨r, g, b, hrgb, ?_⟩
    rw [show b1 = 0xFE from BitVec.eq_of_toNat_eq h]
    conv_lhs => rw [hrgb]
    exact (ChunkSpelling.rgb r g b).decode_append (t.drop 3)
  · obtain ⟨r, g, b, a, hrgba⟩ := exists_four_bytes ht
    refine ⟨r, g, b, a, hrgba, ?_⟩
    rw [show b1 = 0xFF from BitVec.eq_of_toNat_eq h]
    conv_lhs => rw [hrgba]
    exact (ChunkSpelling.rgba r g b a).decode_append (t.drop 4)

/-- R104's length is the model's. -/
theorem chunkLen_eq (b1 : Byte) :
    chunkLen b1 =
      if b1 = 0xFE then 4 else if b1 = 0xFF then 5 else if b1.extractLsb' 6 2 = 2 then 2 else 1 := by
  have htag : bits b1 7 6 = 2 ↔ b1.extractLsb' 6 2 = 2 := by
    rw [bits_eq_div, ← BitVec.toNat_inj, toNat_extractLsb'_eq_div]
    rfl
  simp only [chunkLen, htag]

/-- Settles O4: short of its length the chunk is rejected; otherwise its spelling is that many bytes of the stream. -/
theorem chunkLengthFromLeadByte : Obligations.ChunkLengthFromLeadByte := by
  unfold Obligations.ChunkLengthFromLeadByte
  intro b1 t n hn
  obtain rfl : n = chunkLen b1 := hn.trans (chunkLen_eq b1).symm
  refine ⟨decode_chunk_of_short, fun h => ?_⟩
  obtain ⟨i, hi, hdecode⟩ := decode_chunk_of_le_length h
  refine ⟨i, hdecode, ?_⟩
  have hpos : 0 < chunkLen b1 := by
    unfold chunkLen
    split_ifs <;> decide
  rw [hi.encode_eq, List.length_cons, List.length_take]
  omega

/-- Settles O5: ten closed words, each one evaluation of the decoder. -/
theorem writtenWordsDecode : Obligations.WrittenWordsDecode := by
  unfold Obligations.WrittenWordsDecode
  decide

end Sys2Proof.Machine
namespace Sys2Proof.Machine

/-! The chunks that make pixels (R127, R129, R130 to R139): the presence checks, the writes of PB and of the cache, then each chunk. -/

section
variable {s t : State} {n : Nat} {p : Pixel}

/-- R126: a chunk that is cut raises before it does anything. -/
theorem withChunk_of_cut (k : State → Result) (h : ChunkCut n s) :
    withChunk n s k =
      .next (raise .truncatedChunk s.ipos (BitVec.ofNat 64 n) (s.ilen - s.ipos) s) := by
  obtain ⟨hlead, hcut⟩ := h
  rw [withChunk, if_neg (not_le.mpr hlead), if_pos hcut]

/-- One element written at `pxcnt`, and the count with it (R127). -/
theorem writesPixels_of_write (hmore : s.pxcnt.toNat < s.pxtotal.toNat)
    (hpb : t.pb = Cells.write s.pb s.pxcnt.toNat p) (hcnt : t.pxcnt = s.pxcnt + 1) :
    WritesPixels 1 p s t := by
  refine ⟨hcnt ▸ toNat_succ_of_lt hmore, fun a => ?_⟩
  have hat : s.pxcnt.toNat ≤ a ∧ a < s.pxcnt.toNat + 1 ↔ a = s.pxcnt.toNat := by omega
  simp only [pbRead, hpb, Cells.read_write, hat]

theorem putsInCache_of_set (h : t.cache = s.cache.set (hash p).val p (hash p).isLt) :
    PutsInCache p s t := by
  intro i
  change cacheRead t i = if i.val = (hash p).val then p else cacheRead s i
  simp only [cacheRead, h, Fin.getElem_fin, Vector.getElem_set, eq_comm]

theorem putPixel_putsPixel (hfit : s.ipos.toNat + n ≤ s.ilen.toNat) (h : putPixel n p s = .next t) :
    PutsPixel n p s t := by
  obtain ⟨hmore, rfl⟩ := (putPixel_eq_next n p).mp h
  exact ⟨rfl, writesPixels_of_write hmore rfl rfl, putsInCache_of_set rfl, advancePc_toNat_ipos hfit⟩

/-- A literal, DIFF or LUMA chunk completes where its bytes are there and a pixel is owed. -/
theorem exists_putsPixel (p : State → Pixel) (hn : 0 < n) (h : ChunkReady n s) :
    ∃ t, withChunk n s (fun s => putPixel n (p s) s) = .next t ∧ PutsPixel n (p s) s t := by
  obtain ⟨hfit, hmore⟩ := h
  obtain ⟨t, ht⟩ := answers_putPixel n (p s) hmore
  rw [withChunk_of_ready n _ hn hfit]
  exact ⟨t, ht, putPixel_putsPixel hfit ht⟩

/-- R134: the exact sum modulo 256. -/
theorem toNat_addWrap (v : Byte) (d : Int) : ((addWrap v d).toNat : Int) = (v.toNat + d) % 256 := by
  rw [addWrap, BitVec.toNat_ofInt, Int.toNat_of_nonneg (Int.emod_nonneg _ (by decide))]
  rfl

/-- DIFF and LUMA differ only in their length and in the differences they add (R134, R136). -/
theorem exists_putsPixel_addDelta (dr dg db : Int) (hn : 0 < n) (h : ChunkReady n s) :
    ∃ t, withChunk n s (fun s => putPixel n (addDelta s.prev dr dg db) s) = .next t ∧
      PutsPixel n t.prev s t ∧
      (t.prev.r.toNat : Int) = (s.prev.r.toNat + dr) % 256 ∧
      (t.prev.g.toNat : Int) = (s.prev.g.toNat + dg) % 256 ∧
      (t.prev.b.toNat : Int) = (s.prev.b.toNat + db) % 256 ∧
      t.prev.a = s.prev.a := by
  obtain ⟨t, ht, hputs⟩ := exists_putsPixel (fun s => addDelta s.prev dr dg db) hn h
  have hprev : t.prev = addDelta s.prev dr dg db := by rw [hputs.1]
  refine ⟨t, ht, ?_⟩
  rw [hprev]
  exact ⟨hputs, toNat_addWrap .., toNat_addWrap .., toNat_addWrap .., rfl⟩

end

/-- Settles O10: RGB is the presence check of 4 bytes, then one pixel put with the alpha of `prev`. -/
theorem rgbMakesAPixel : Obligations.RgbMakesAPixel := by
  unfold Obligations.RgbMakesAPixel
  intro r g b s
  exact ⟨exists_putsPixel (fun s => ⟨r, g, b, s.prev.a⟩) (by decide), withChunk_of_cut _⟩

/-- Settles O11: RGBA is the presence check of 5 bytes, then one pixel put. -/
theorem rgbaMakesAPixel : Obligations.RgbaMakesAPixel := by
  unfold Obligations.RgbaMakesAPixel
  intro r g b a s
  exact ⟨exists_putsPixel (fun _ => ⟨r, g, b, a⟩) (by decide), withChunk_of_cut _⟩

/-- Settles O13: DIFF is the presence check of 1 byte, then `prev` plus the differences put. -/
theorem diffMakesAPixel : Obligations.DiffMakesAPixel := by
  unfold Obligations.DiffMakesAPixel
  intro dr dg db s _ hready
  exact exists_putsPixel_addDelta dr dg db (by decide) hready

/-- Settles O14: LUMA is the presence check of 2 bytes, then `prev` plus the sums of differences put. -/
theorem lumaMakesAPixel : Obligations.LumaMakesAPixel := by
  unfold Obligations.LumaMakesAPixel
  intro dg drdg dbdg s _
  exact ⟨exists_putsPixel_addDelta (dg + drdg) dg (dg + dbdg) (by decide), withChunk_of_cut _⟩

/-- Settles O12: INDEX produces the slot's pixel and writes `prev` and `pc`, never the cache. -/
theorem indexReplaysASlot : Obligations.IndexReplaysASlot := by
  unfold Obligations.IndexReplaysASlot
  rintro k s ⟨hfit, hmore⟩
  have hexec : exec (.index k) s =
      andThen (produce (cacheRead s k) s) fun t =>
        .next (advancePc 1 (setPrev (cacheRead s k) t)) := by
    simp only [exec, execIndex, withChunk_of_ready 1 _ Nat.one_pos hfit]
  rw [hexec, produce_of_lt _ hmore, andThen_next]
  exact ⟨_, rfl, rfl, writesPixels_of_write hmore rfl rfl, advancePc_toNat_ipos hfit⟩

/-- Settles O15: RUN checks the pixels owed, then repeats `produce`, which writes PB and `pxcnt` only. -/
theorem runRepeatsThePreviousPixel : Obligations.RunRepeatsThePreviousPixel := by
  unfold Obligations.RunRepeatsThePreviousPixel
  rintro count s - ⟨hfit, hmore⟩
  simp only [exec, execRun, withChunk_of_ready 1 _ Nat.one_pos hfit]
  refine ⟨fun hroom => ?_, fun hover => if_pos hover⟩
  obtain ⟨u, hu, hframe, hcnt, -, hread⟩ := produceMany_of_le s.prev count s (by omega)
  have hipos : u.ipos = s.ipos := by rw [hframe]
  rw [if_neg (not_lt.mpr hroom), hu, andThen_next]
  refine ⟨_, rfl, ?_, ⟨hcnt, hread⟩, ?_⟩
  · rw [hframe]
    rfl
  · rw [advancePc_ipos, hipos]
    exact advancePc_toNat_ipos hfit

/-! Who writes the cache (R26, R129). -/

/-- `s` without what only the encode side writes: the checksum registers, the row, block and bit counters, and FB, ZS and OUT. -/
def withoutEncodeSide (s : State) : State :=
  { s with
    fb := [], zs := [], out := [], opos := 0, crc := 0, adlerA := 0, adlerB := 0, frow := 0,
    bitbuf := 0, bitcnt := 0, blk := 0, ckOut := 0 }

section
variable {s t : State} {i : Instr}

theorem withoutEncodeSide_putBit (b : Bool) (s : State) :
    withoutEncodeSide (putBit b s) = withoutEncodeSide s := by
  unfold putBit
  dsimp only
  split_ifs <;> rfl

theorem withoutEncodeSide_bitsPut (v : BitVec 16) (k : Nat) (s : State) :
    withoutEncodeSide (bitsPut v k s) = withoutEncodeSide s := by
  unfold bitsPut
  generalize (List.range k).map v.getLsbD = bits
  induction bits generalizing s with
  | nil => rfl
  | cons b bits ih => exact (ih (putBit b s)).trans (withoutEncodeSide_putBit b s)

theorem withoutEncodeSide_bitsAlign (s : State) :
    withoutEncodeSide (bitsAlign s) = withoutEncodeSide s := by
  unfold bitsAlign
  split_ifs <;> rfl

theorem withoutEncodeSide_storedBlock (final : Bool) (piece : List Byte) (s : State) :
    withoutEncodeSide (storedBlock final piece s) = withoutEncodeSide s := by
  have header (v : BitVec 16) :
      withoutEncodeSide (bitsAlign (bitsPut 0 2 (bitsPut v 1 s))) = withoutEncodeSide s := by
    rw [withoutEncodeSide_bitsAlign, withoutEncodeSide_bitsPut, withoutEncodeSide_bitsPut]
  rw [storedBlock, ← header ((BitVec.ofBool final).zeroExtend 16)]
  generalize bitsAlign _ = u
  rfl

theorem withoutEncodeSide_of_frameChunk {ty : Word32} {d : List Byte}
    (h : frameChunk ty d s = .next t) : withoutEncodeSide t = withoutEncodeSide s := by
  obtain ⟨-, rfl⟩ := (frameChunk_eq_next ty d).mp h
  rfl

/-- An operation that is not written in IN or CTRL raises, or writes the encode side only (R79). -/
theorem exec_withoutEncodeSide (hi : codeSpace i = none) (h : exec i s = .next t) :
    RaisedFrom s t ∨ withoutEncodeSide t = withoutEncodeSide s := by
  cases i with
  | filtRow =>
    refine (exec_filtRow_cases h).imp_right fun hrow => ?_
    obtain ⟨raw, -, -, rfl⟩ := emitRow_hw_eq_next hrow
    rfl
  | bitsPut =>
    cases h
    exact .inr (withoutEncodeSide_bitsPut _ _ s)
  | bitsAlign =>
    cases h
    exact .inr (withoutEncodeSide_bitsAlign s)
  | deflateStored =>
    simp only [exec, execDeflateStored, deflateStoredWith] at h
    split_ifs at h
    cases h
    exact .inr (withoutEncodeSide_storedBlock _ _ s)
  | pngChunk => exact .inr (withoutEncodeSide_of_frameChunk h)
  | pngIhdr =>
    simp only [exec, execPngIhdr] at h
    split at h
    · exact .inr (withoutEncodeSide_of_frameChunk h)
    · cases h
  | pngIdat =>
    simp only [exec, execPngIdat, idatWith] at h
    split_ifs at h
    exact .inr (withoutEncodeSide_of_frameChunk h)
  | pngIend => exact .inr (withoutEncodeSide_of_frameChunk (ty := typeIend) (d := []) h)
  | rgb | rgba | index | diff | luma | run | header | endMarker | start | sreset => cases hi
  | _ =>
    cases h
    exact .inr rfl

theorem RaisedFrom.cache_eq (h : RaisedFrom s t) : t.cache = s.cache := by
  obtain ⟨k, o, e, f, rfl, -, -⟩ := h
  rfl

theorem AddsPixels.cache_eq (h : AddsPixels s t) : t.cache = s.cache := by
  obtain ⟨pb, cnt, rfl, -⟩ := h
  rfl

theorem exec_index_cache {slot : Fin 64} (h : exec (.index slot) s = .next t) :
    t.cache = s.cache := by
  simp only [exec, execIndex] at h
  rcases withChunk_cases h with hraise | ⟨-, hput⟩
  · exact hraise.cache_eq
  · obtain ⟨u, hu, hrest⟩ := andThen_eq_next.mp hput
    cases hrest
    exact (addsPixels_of_produce hu).cache_eq

theorem exec_run_cache {count : Nat} (h : exec (.run count) s = .next t) : t.cache = s.cache := by
  simp only [exec, execRun] at h
  rcases withChunk_cases h with hraise | ⟨-, hrun⟩
  · exact hraise.cache_eq
  · split_ifs at hrun
    · cases hrun
      rfl
    · obtain ⟨u, hu, hrest⟩ := andThen_eq_next.mp hrun
      cases hrest
      exact (addsPixels_of_produceMany hu).cache_eq

/-- Beside the four writers, only the commands touch the cache (R26). -/
theorem exec_cache_of_not_writesCache (hctrl : codeSpace i ≠ some .ctrl) (hi : ¬ WritesCache i)
    (h : exec i s = .next t) : t.cache = s.cache := by
  cases hsp : codeSpace i with
  | none =>
    rcases exec_withoutEncodeSide hsp h with hraise | hside
    · exact hraise.cache_eq
    · exact (congrArg State.cache hside :)
  | some sp =>
    cases sp with
    | header =>
      obtain ⟨m, w, ht, c, cs, rfl⟩ := codeSpace_eq_header_iff.mp hsp
      rcases exec_header_cases h with hraise | ⟨-, -, hu⟩
      · exact hraise.cache_eq
      · rw [hu]
    | chunk =>
      cases i with
      | rgb r g b => exact absurd (.inl ⟨r, g, b, rfl⟩) hi
      | rgba r g b a => exact absurd (.inr (.inl ⟨r, g, b, a, rfl⟩)) hi
      | diff dr dg db => exact absurd (.inr (.inr (.inl ⟨dr, dg, db, rfl⟩))) hi
      | luma dg x y => exact absurd (.inr (.inr (.inr ⟨dg, x, y, rfl⟩))) hi
      | index slot => exact exec_index_cache h
      | run count => exact exec_run_cache h
      | _ => cases hsp
    | endMarker =>
      obtain ⟨m, rfl⟩ := codeSpace_eq_endMarker_iff.mp hsp
      rcases exec_endMarker_cases h with hraise | ⟨-, hu⟩
      · exact hraise.cache_eq
      · rw [hu, advancePc_cache]
    | ctrl => exact absurd hsp hctrl

/-- A writer that did not raise counted one pixel (R127). -/
theorem pxcnt_ne_of_putPixel {n : Nat} {p : Pixel} (h : putPixel n p s = .next t) :
    t.pxcnt ≠ s.pxcnt := by
  obtain ⟨hmore, rfl⟩ := (putPixel_eq_next n p).mp h
  intro heq
  have hsucc := toNat_succ_of_lt hmore
  have hsame : (s.pxcnt + 1).toNat = s.pxcnt.toNat := congrArg BitVec.toNat heq
  omega

theorem putsInCache_of_putPixel {n : Nat} {p : Pixel} (h : putPixel n p s = .next t) :
    PutsInCache p s t := by
  obtain ⟨-, rfl⟩ := (putPixel_eq_next n p).mp h
  exact putsInCache_of_set rfl

end

/-- Settles O16: a writer raises, and then neither counts nor writes, or puts one pixel; no other instruction writes the cache. -/
theorem onlyFourChunkKindsWriteTheCache : Obligations.OnlyFourChunkKindsWriteTheCache := by
  unfold Obligations.OnlyFourChunkKindsWriteTheCache
  intro i s t h hstart hsreset
  have hctrl : codeSpace i ≠ some .ctrl := fun hsp =>
    (codeSpace_eq_ctrl_iff.mp hsp).elim hstart hsreset
  refine ⟨fun hi => exec_cache_of_not_writesCache hctrl hi h, fun hi hcnt => ?_, fun hi hcnt => ?_⟩
  · rcases exec_writesCache_cases hi h with hraise | ⟨n, p, hput⟩
    · exact hraise.cache_eq
    · exact absurd hcnt (pxcnt_ne_of_putPixel hput)
  · rcases exec_writesCache_cases hi h with hraise | ⟨n, p, hput⟩
    · exact absurd hraise.pxcnt_eq hcnt
    · obtain ⟨rfl, hpb, -⟩ := reads_of_putPixel hput
      exact ⟨hpb, putsInCache_of_putPixel hput⟩

end Sys2Proof.Machine
namespace Sys2Proof.Machine

/-! What a step of the decoder runs (R121, R262): the windows of IN, the sequencer's fetch in each phase, then the step. -/

section
variable {s : State} {i : Instr} {rest : List Byte} {sp : CodeSpace} {a : Nat}

theorem inWindow_length (s : State) (a n : Nat) :
    (inWindow s a n).length = min n (s.ilen.toNat - a) := by
  rw [inWindow, List.length_map, List.length_range]

/-- A window that does not begin at ILEN or beyond begins with the byte there (R61). -/
theorem inWindow_succ (h : a < s.ilen.toNat) (n : Nat) :
    inWindow s a (n + 1) = inByte s a :: inWindow s (a + 1) n := by
  have hlen : min (n + 1) (s.ilen.toNat - a) = min n (s.ilen.toNat - (a + 1)) + 1 := by omega
  simp only [inWindow, hlen, List.range_succ_eq_map, List.map_cons, List.map_map, Nat.add_zero]
  refine congrArg (inByte s a :: ·) (List.map_congr_left fun k _ => ?_)
  simp only [Function.comp_apply, Nat.succ_eq_add_one, Nat.add_assoc, Nat.add_comm 1 k]

theorem issue_of_decHdr (hp : s.phase = .decHdr) : issue s = fetch .header 0 s := by
  unfold issue
  rw [hp]

theorem issue_of_decBody (hp : s.phase = .decBody) (hmore : s.pxcnt.toNat < s.pxtotal.toNat) :
    issue s = fetch .chunk s.ipos.toNat s := by
  unfold issue
  rw [hp]
  exact if_pos hmore

theorem issue_of_decEnd (hp : s.phase = .decEnd) : issue s = fetch .endMarker s.ipos.toNat s := by
  unfold issue
  rw [hp]

/-- A fetch that finds an item runs it and moves the phase (R121). -/
theorem step_of_fetch_ok (hhost : s.host = []) (hissue : issue s = fetch sp a s)
    (hd : decode sp (inWindow s a (spaceBytes sp)) = .ok (i, rest)) :
    step s = andThen (exec i s) fun t => .next (advance i t) := by
  rw [step_eq_operate hhost, operate_eq_perform, hissue, fetch, hd]
  rfl

/-- A fetch that finds none raises, and the phase is that of the raise (R124, R126, R122, R144). -/
theorem step_of_fetch_error {r : Reject} (hhost : s.host = []) (hissue : issue s = fetch sp a s)
    (hd : decode sp (inWindow s a (spaceBytes sp)) = .error r) :
    step s = .next (raiseReject r s) := by
  rw [step_eq_operate hhost, operate_eq_perform, hissue, fetch, hd]
  rfl

/-! Windows that are too short for their item (R102). -/

theorem decode_header_of_short {bytes : List Byte} (h : bytes.length < 14) :
    decode .header bytes = .error (.truncatedHeader bytes.length) := by
  change decodeHeader bytes = _
  unfold decodeHeader
  split
  · simp only [List.length_cons] at h
    omega
  · rfl

theorem decode_endMarker_of_short {bytes : List Byte} (h : bytes.length < 8) :
    decode .endMarker bytes = .error (.truncatedMarker bytes.length) := by
  change decodeEnd bytes = _
  unfold decodeEnd
  split
  · simp only [List.length_cons] at h
    omega
  · rfl

theorem chunkLen_le_five (b1 : Byte) : chunkLen b1 ≤ 5 := by
  unfold chunkLen
  split_ifs <;> decide

/-- At a cut chunk the decoder names the length its lead byte gives and the bytes that are there (R104, R126). -/
theorem decode_chunk_of_cut (h : ChunkCut (chunkLen (inByte s s.ipos.toNat)) s) :
    decode .chunk (inWindow s s.ipos.toNat 5) =
      .error (.truncatedChunk (chunkLen (inByte s s.ipos.toNat)) (s.ilen.toNat - s.ipos.toNat)) := by
  obtain ⟨hlead, hcut⟩ := h
  have hlen := inWindow_length s (s.ipos.toNat + 1) 4
  have hmax := chunkLen_le_five (inByte s s.ipos.toNat)
  have hthere : (inWindow s (s.ipos.toNat + 1) 4).length + 1 = s.ilen.toNat - s.ipos.toNat := by
    omega
  rw [inWindow_succ hlead, decode_chunk_of_short (by omega), hthere]

theorem ofNat_toNat_sub {w : Nat} {x y : BitVec w} (h : y.toNat ≤ x.toNat) :
    BitVec.ofNat w (x.toNat - y.toNat) = x - y := by
  rw [← BitVec.toNat_sub_of_le (BitVec.le_def.mpr h), BitVec.ofNat_toNat, BitVec.setWidth_eq]

end

/-- Settles O9: the window of the item is too short for the decoder, and the step raises what its rejection says. -/
theorem missingInputRaises : Obligations.MissingInputRaises := by
  unfold Obligations.MissingInputRaises
  intro s hhost
  refine ⟨fun hp hshort => ?_, fun hp hmore hend => ?_, fun n hp hmore hn hcut => ?_,
    fun hp hshort => ?_⟩
  · have hlen : (inWindow s 0 14).length < 14 := by
      rw [inWindow_length]
      omega
    exact step_of_fetch_error hhost (issue_of_decHdr hp) (decode_header_of_short hlen)
  · have hlen := inWindow_length s s.ipos.toNat 5
    have hempty : inWindow s s.ipos.toNat 5 = [] := List.eq_nil_of_length_eq_zero (by omega)
    have hd : decode .chunk (inWindow s s.ipos.toNat 5) = .error .noLeadByte := by
      rw [hempty]
      rfl
    exact step_of_fetch_error hhost (issue_of_decBody hp hmore) hd
  · subst hn
    rw [step_of_fetch_error hhost (issue_of_decBody hp hmore) (decode_chunk_of_cut hcut),
      raiseReject, ofNat_toNat_sub hcut.1.le]
  · have hlen : (inWindow s s.ipos.toNat 8).length < 8 := by
      rw [inWindow_length]
      omega
    have hthere : min 8 (s.ilen.toNat - s.ipos.toNat) = s.ilen.toNat - s.ipos.toNat := by omega
    rw [step_of_fetch_error hhost (issue_of_decEnd hp) (decode_endMarker_of_short hlen),
      raiseReject, raiseShortMarker, inWindow, hthere]

/-- Settles O6: the decoder's phases fetch and run; a write of CTRL runs its command; a poll or a wait lets the block step. -/
theorem stepRunsTheDecodedInstruction : Obligations.StepRunsTheDecodedInstruction := by
  unfold Obligations.StepRunsTheDecodedInstruction
  intro s i rest
  refine ⟨fun hhost hp => step_of_fetch_ok hhost (issue_of_decHdr hp),
    fun hhost hp hmore => step_of_fetch_ok hhost (issue_of_decBody hp hmore),
    fun hhost hp => step_of_fetch_ok hhost (issue_of_decEnd hp),
    fun v moves hhost hcmd => ?_, step_eq_operate, fun moves hhost => ?_, fun moves hhost => ?_⟩
  · rw [step_cons hhost, hostMove, hcmd]
    rfl
  · rw [step_cons hhost]
    rfl
  · rw [step_cons hhost, hostMove]
    have hkept : { setHost moves s with host := .waitEnd :: moves } = s := by
      rw [← hhost]
      rfl
    exact if_congr Iff.rfl (congrArg operate hkept) rfl

/-! HEADER and END, check by check (R122, R141, R144, R145). -/

/-- Settles O18: a header that passes every check is latched, and its pixel count fits 32 bits. -/
theorem headerLatchesItsFields : Obligations.HeaderLatchesItsFields := by
  unfold Obligations.HeaderLatchesItsFields
  intro w h c cs s hlen hw hh hc hcs hsize
  exact ⟨_, exec_header_of_legal hlen hw hh hc hcs hsize,
    Nat.mod_eq_of_lt (pixels_lt_of_bytes_lt hc hsize), rfl⟩

/-- Settles O19: each check that passes leaves the checks after it. -/
theorem headerRaisesItsFirstFailure : Obligations.HeaderRaisesItsFirstFailure := by
  unfold Obligations.HeaderRaisesItsFirstFailure
  intro cfg m w h c cs s
  rw [headerWith]
  refine ⟨fun hshort => if_pos hshort, fun hlen => ?_⟩
  rw [if_neg (not_lt.mpr hlen)]
  refine ⟨fun hmagic => if_pos hmagic, fun hmagic => ?_⟩
  rw [if_neg (not_not.mpr hmagic)]
  refine ⟨fun hw => if_pos hw, fun hw hh => ?_, fun hw hh => ?_⟩
  · rw [if_neg hw, if_pos hh]
  rw [if_neg hw, if_neg hh]
  refine ⟨fun hc => if_pos hc, fun hc => ?_⟩
  rw [if_neg (by tauto)]
  refine ⟨fun hcs => if_pos hcs, fun hcs => ?_⟩
  rw [if_neg (by tauto), latchHeader]
  refine ⟨fun hbytes => if_pos hbytes, fun hbytes hpixels => ?_⟩
  rw [if_neg (not_le.mpr hbytes), if_pos hpixels]

section
variable {s : State}

theorem endWith_of_marker (cfg : Params) (h : s.ipos.toNat + 8 ≤ s.ilen.toNat) :
    endWith cfg endMarkerValue s = trailingCheck cfg (advancePc 8 s) := by
  rw [endWith, if_neg (not_lt.mpr h), if_neg (not_not.mpr rfl)]

theorem endWith_of_ne (cfg : Params) {e : Word64} (h : s.ipos.toNat + 8 ≤ s.ilen.toNat)
    (he : e ≠ endMarkerValue) :
    endWith cfg e s = raise .badEndMarker s.ipos endMarkerValue e s := by
  rw [endWith, if_neg (not_lt.mpr h), if_pos he]

theorem trailingCheck_of_ignore {cfg : Params} (h : cfg.trailing = .ignore) (s : State) :
    trailingCheck cfg s = s := by
  rw [trailingCheck, h]
  exact if_neg nofun

theorem trailingCheck_of_end (cfg : Params) (h : s.ipos = s.ilen) : trailingCheck cfg s = s := by
  rw [trailingCheck, h]
  exact if_neg fun hmore => lt_irrefl _ hmore.1

theorem trailingCheck_of_reject {cfg : Params} (h : cfg.trailing = .reject)
    (hmore : s.ipos.toNat < s.ilen.toNat) :
    trailingCheck cfg s = raise .trailingData s.ipos 0 (s.ilen - s.ipos) s := by
  rw [trailingCheck, if_pos ⟨hmore, h⟩]

end

/-- Settles O21: END compares the marker, moves `pc`, and leaves what follows to the trailing check, which this hardware ignores. -/
theorem endChecksTheMarker : Obligations.EndChecksTheMarker := by
  unfold Obligations.EndChecksTheMarker
  intro e s t hfit ht
  obtain rfl : t = advancePc 8 s := ht
  refine ⟨advancePc_toNat_ipos hfit, ?_, fun he => congrArg _ (endWith_of_ne _ hfit he),
    fun cfg => ?_⟩
  · rintro rfl
    refine congrArg _ ((endWith_of_marker _ hfit).trans ?_)
    exact trailingCheck_of_ignore hw_trailing _
  · rw [endWith_of_marker cfg hfit]
    exact ⟨fun h => trailingCheck_of_ignore h _, trailingCheck_of_end cfg, trailingCheck_of_reject⟩

end Sys2Proof.Machine
namespace Sys2Proof.Machine

/-! The CRC (R161 to R164): a shift step is linear over XOR, so the low byte and the rest shift apart. -/

/-- What a shift step adds for the bit it shifts out (R162). -/
def crcFeedback (out : Bool) : Word32 := if out then crcPoly else 0

theorem crcFeedback_xor (p q : Bool) :
    crcFeedback (p ^^ q) = crcFeedback p ^^^ crcFeedback q := by
  cases p <;> cases q <;> rfl

theorem crcShift_eq_xor_feedback (x : Word32) :
    crcShift x = (x >>> 1) ^^^ crcFeedback (x.getLsbD 0) := by
  unfold crcShift crcFeedback
  cases x.getLsbD 0
  · exact BitVec.xor_zero.symm
  · rfl

theorem crcShift_xor (x y : Word32) : crcShift (x ^^^ y) = crcShift x ^^^ crcShift y := by
  rw [crcShift_eq_xor_feedback, crcShift_eq_xor_feedback, crcShift_eq_xor_feedback,
    BitVec.getLsbD_xor, BitVec.ushiftRight_xor_distrib, crcFeedback_xor]
  ac_rfl

theorem crcShifts_xor (n : Nat) (x y : Word32) :
    crcShifts n (x ^^^ y) = crcShifts n x ^^^ crcShifts n y := by
  induction n generalizing x y with
  | zero => rfl
  | succ n ih => rw [crcShifts, crcShift_xor, ih, crcShifts, crcShifts]

/-- While the bits shifted out are zero, the polynomial does not enter. -/
theorem crcShifts_of_low_zero {n : Nat} {x : Word32} (h : ∀ i < n, x.getLsbD i = false) :
    crcShifts n x = x >>> n := by
  induction n generalizing x with
  | zero => exact (BitVec.ushiftRight_zero x).symm
  | succ n ih =>
    have hshift : crcShift x = x >>> 1 := by rw [crcShift, h 0 n.succ_pos, if_neg Bool.false_ne_true]
    have hlow : ∀ i < n, (x >>> 1).getLsbD i = false := fun i hi => by
      rw [BitVec.getLsbD_ushiftRight]
      exact h (1 + i) (by omega)
    rw [crcShifts, hshift, ih hlow, ← BitVec.shiftRight_add, Nat.add_comm]

theorem crcShifts_eq_iterate (n : Nat) (c : Word32) : crcShifts n c = crcShift^[n] c := by
  induction n generalizing c with
  | zero => rfl
  | succ n ih => exact ih (crcShift c)

theorem xor_byte_ushiftRight (c : Word32) (v : Byte) : (c ^^^ v.zeroExtend 32) >>> 8 = c >>> 8 := by
  ext i hi
  simp

/-- Eight shift steps depend on the low byte alone, apart from shifting the rest (R164). -/
theorem crcShifts_eight (x : Word32) :
    crcShifts 8 x = crcShifts 8 ((x.truncate 8).zeroExtend 32) ^^^ (x >>> 8) := by
  have hlow : ∀ i < 8, (x ^^^ (x.truncate 8).zeroExtend 32).getLsbD i = false := fun i hi => by
    simp [hi, show i < 32 by omega]
  calc crcShifts 8 x
      = crcShifts 8 ((x.truncate 8).zeroExtend 32 ^^^ (x ^^^ (x.truncate 8).zeroExtend 32)) := by
        rw [BitVec.xor_comm x, ← BitVec.xor_assoc, BitVec.xor_self, BitVec.zero_xor]
    _ = crcShifts 8 ((x.truncate 8).zeroExtend 32) ^^^ (x >>> 8) := by
        rw [crcShifts_xor, crcShifts_of_low_zero hlow, xor_byte_ushiftRight]

/-- Settles O37: of the eight steps, those of the low byte are the table's entry and those of the rest only shift. -/
theorem crcTableForm : Obligations.CrcTableForm := by
  unfold Obligations.CrcTableForm
  intro T hT c v
  rw [crcStep, crcShifts_eight, hT, xor_byte_ushiftRight]

/-- Settles O34: CRC.UPDATE's shift steps are the iterated step of R162; the other two are one write each. -/
theorem crcOperations : Obligations.CrcOperations := by
  unfold Obligations.CrcOperations
  intro v s
  have hexec : exec (.crcUpdate v) s = .next (crcFeed [v] s) := rfl
  have hcrc : crcSteps s.crc [v] = crcShift^[8] (s.crc ^^^ v.zeroExtend 32) :=
    crcShifts_eq_iterate 8 _
  refine ⟨rfl, ?_, rfl⟩
  rw [hexec, crcFeed, hcrc]
  rfl

/-! Adler-32 (R166 to R169): the registers hold residues of the undivided sums. -/

section
variable (ab : BitVec 16 × BitVec 16) (v : Byte)

theorem toNat_ofNat_mod_adlerMod (n : Nat) :
    (BitVec.ofNat 16 (n % adlerMod)).toNat = n % 65521 :=
  Nat.mod_eq_of_lt (show n % 65521 < 2 ^ 16 by omega)

theorem toNat_adlerStep_fst : (adlerStep ab v).1.toNat = (ab.1.toNat + v.toNat) % 65521 :=
  toNat_ofNat_mod_adlerMod _

/-- The second sum takes the new first sum (R167). -/
theorem toNat_adlerStep_snd :
    (adlerStep ab v).2.toNat = (ab.2.toNat + (adlerStep ab v).1.toNat) % 65521 :=
  toNat_ofNat_mod_adlerMod _

theorem toNat_adlerValue : (adlerValue ab).toNat = ab.2.toNat * 65536 + ab.1.toNat := by
  have ha := ab.1.isLt
  have hb := ab.2.isLt
  have hfst : (ab.1.zeroExtend 32).toNat = ab.1.toNat := BitVec.toNat_setWidth_of_le (by decide)
  have hsnd : (ab.2.zeroExtend 32 <<< 16).toNat = ab.2.toNat <<< 16 := by
    rw [BitVec.toNat_shiftLeft, BitVec.toNat_setWidth_of_le (by decide), Nat.shiftLeft_eq]
    exact Nat.mod_eq_of_lt (by omega)
  rw [adlerValue, BitVec.toNat_or, hfst, hsnd, shiftLeft_or_eq_add _ ha]
  exact congrArg (· + ab.1.toNat) (Nat.mul_comm _ _)

end

/-- ADLER.UPDATE on undivided sums (R169). -/
def addSums (AB : Nat × Nat) (v : Byte) : Nat × Nat := (AB.1 + v.toNat, AB.2 + (AB.1 + v.toNat))

/-- The registers `ab` hold the residues of the sums `AB`. -/
def HoldsResidues (ab : BitVec 16 × BitVec 16) (AB : Nat × Nat) : Prop :=
  ab.1.toNat = AB.1 % 65521 ∧ ab.2.toNat = AB.2 % 65521

theorem HoldsResidues.update {ab : BitVec 16 × BitVec 16} {AB : Nat × Nat}
    (h : HoldsResidues ab AB) (v : Byte) : HoldsResidues (adlerStep ab v) (addSums AB v) := by
  obtain ⟨hfst, hsnd⟩ := h
  unfold HoldsResidues
  rw [toNat_adlerStep_snd, toNat_adlerStep_fst, addSums, hfst, hsnd]
  omega

theorem HoldsResidues.adlerSteps {ab : BitVec 16 × BitVec 16} {AB : Nat × Nat}
    (h : HoldsResidues ab AB) (bytes : List Byte) :
    HoldsResidues (adlerSteps ab bytes) (bytes.foldl addSums AB) :=
  List.foldl_rel h fun v _ _ _ hsums => hsums.update v

/-- A byte adds at most 255 to the first sum; twice the second sum grows by the triangle of those. -/
theorem foldl_addSums_le (bytes : List Byte) (AB : Nat × Nat) :
    (bytes.foldl addSums AB).1 ≤ AB.1 + 255 * bytes.length ∧
      2 * (bytes.foldl addSums AB).2 ≤
        2 * AB.2 + bytes.length * (2 * AB.1 + 255 * (bytes.length + 1)) := by
  induction bytes generalizing AB with
  | nil => simp
  | cons v rest ih =>
    obtain ⟨hfst, hsnd⟩ := ih (addSums AB v)
    have hv : v.toNat ≤ 255 := Nat.le_of_lt_succ v.isLt
    have hgrowth := Nat.mul_le_mul_left (rest.length + 1) hv
    simp only [List.foldl_cons, List.length_cons, addSums] at hfst hsnd ⊢
    exact ⟨by omega, by linarith⟩

/-- Settles O38: each byte keeps the residues, and 5552 bytes are too few for the sums to reach 2^32. -/
theorem adlerModuloMayBeDeferred : Obligations.AdlerModuloMayBeDeferred := by
  unfold Obligations.AdlerModuloMayBeDeferred
  intro a b bytes AB hAB ha hb
  obtain rfl : AB = bytes.foldl addSums (a.toNat, b.toNat) := hAB
  have hstart : HoldsResidues (a, b) (a.toNat, b.toNat) :=
    ⟨(Nat.mod_eq_of_lt ha).symm, (Nat.mod_eq_of_lt hb).symm⟩
  obtain ⟨hfst, hsnd⟩ := hstart.adlerSteps bytes
  refine ⟨hfst, hsnd, fun hlen => ?_⟩
  obtain ⟨hA, hB⟩ := foldl_addSums_le bytes (a.toNat, b.toNat)
  have hgrowth : bytes.length * (2 * a.toNat + 255 * (bytes.length + 1)) ≤
      5552 * (2 * 65520 + 255 * 5553) := Nat.mul_le_mul hlen (by omega)
  dsimp only at hA hB
  constructor <;> omega

/-- Settles O35: one byte of the register step, in numbers; the value is the two sums side by side. -/
theorem adlerOperations : Obligations.AdlerOperations := by
  unfold Obligations.AdlerOperations
  intro v s
  exact ⟨rfl,
    ⟨adlerFeed [v] s, rfl, rfl, toNat_adlerStep_fst (s.adlerA, s.adlerB) v,
      toNat_adlerStep_snd (s.adlerA, s.adlerB) v⟩,
    ⟨adlerFinal s, rfl, rfl, toNat_adlerValue (s.adlerA, s.adlerB)⟩⟩

/-- Settles O36: seven closed byte strings, each one evaluation of the two functions. -/
theorem checksumCheckValues : Obligations.ChecksumCheckValues := by
  unfold Obligations.ChecksumCheckValues
  simp [crc32, crcSteps, crcStep, crcShifts, crcShift, adler32, adlerSteps, adlerStep, adlerMod,
    adlerValue]

end Sys2Proof.Machine
namespace Sys2Proof.Machine

/-! FILT.ROW (R181 to R184): the argument check, the raw row read from PB, then the whole of phase FILTER. -/

section
variable {s : State} {y : Nat}

/-- The bytes that the element of PB at an address adds to its row (R182). -/
def bytesAt (s : State) (a : Nat) : List Byte := (pbRead s a).elim [] (pixelBytes s.hdrChannels)

theorem rowFromPixels_eq (s : State) (y : Nat) :
    rowFromPixels s y =
      (List.range' (y * s.hdrWidth.toNat) s.hdrWidth.toNat).flatMap (bytesAt s) := by
  rw [List.range'_eq_map_range, List.flatMap_map]
  refine congrArg List.flatten (List.map_congr_left fun x _ => ?_)
  unfold bytesAt
  cases pbRead s (y * s.hdrWidth.toNat + x) <;> rfl

/-- Consecutive elements that all hold a value are read, and give their bytes in order (R27, R182). -/
theorem flatMap_pbReadMany {a n : Nat}
    (hvalues : ∀ b, a ≤ b → b < a + n → (pbRead s b).isSome = true) :
    (pbReadMany s a n).map (·.flatMap (pixelBytes s.hdrChannels)) =
      some ((List.range' a n).flatMap (bytesAt s)) := by
  induction n generalizing a with
  | zero => rfl
  | succ n ih =>
    obtain ⟨p, hp⟩ := Option.isSome_iff_exists.mp (hvalues a le_rfl (by omega))
    obtain ⟨ps, hps, hbytes⟩ := Option.map_eq_some_iff.mp
      (ih (a := a + 1) fun b hlo hhi => hvalues b (by omega) (by omega))
    rw [List.range'_succ, List.flatMap_cons, ← hbytes, bytesAt, hp]
    simp only [pbReadMany, hp, hps]
    rfl

/-- A row whose pixels all hold a value is the row of R182. -/
theorem rawRow_of_present (h : RowPresent s y) : rawRow s y = some (rowFromPixels s y) := by
  rw [rowFromPixels_eq]
  refine flatMap_pbReadMany fun b hlo hhi => ?_
  have hb := h (b - y * s.hdrWidth.toNat) (by omega)
  rwa [Nat.add_sub_cancel' hlo] at hb

/-- PB of a decoded image holds every pixel of every row (R63, R143). -/
theorem ImageDecoded.rowPresent (himage : ImageDecoded s) (hy : y < s.hdrHeight.toNat) :
    RowPresent s y := by
  obtain ⟨⟨-, hpb, -⟩, ⟨-, -, -, -, -, htotal⟩, hfull⟩ := himage
  intro x hx
  have hrows := Nat.mul_le_mul_left s.hdrWidth.toNat (Nat.succ_le_of_lt hy)
  rw [pbRead_isSome_iff hpb, hfull, htotal]
  rw [Nat.mul_succ, Nat.mul_comm] at hrows
  omega

/-- The row above is no bytes for row 0, and the row before otherwise (R185). -/
theorem rowAbove_adaptive_of_present (h : 0 < y → RowPresent s (y - 1)) :
    rowAbove .adaptive s y = some (if y = 0 then [] else rowFromPixels s (y - 1)) := by
  unfold rowAbove
  split_ifs with hfirst
  · rfl
  · exact rawRow_of_present (h (Nat.pos_of_ne_zero hfirst))

/-- Legal header registers pass the argument check (R181). -/
theorem filtRowWith_of_legal (cfg : Params) (hc : s.hdrChannels = 3 ∨ s.hdrChannels = 4)
    (hw : 0 < s.hdrWidth.toNat) (hrow : s.frow.toNat < s.hdrHeight.toNat) :
    filtRowWith cfg s = emitRow cfg s := by
  have hwidth : s.hdrWidth ≠ 0 := fun e => hw.ne' (congrArg BitVec.toNat e)
  have hheight : s.hdrHeight ≠ 0 := fun e =>
    (Nat.zero_lt_of_lt hrow).ne' (congrArg BitVec.toNat e)
  have hlegal : ¬ (s.hdrChannels ≠ 3 ∧ s.hdrChannels ≠ 4) := by tauto
  have hdims : ¬ (s.hdrWidth = 0 ∨ s.hdrHeight = 0) := not_or.mpr ⟨hwidth, hheight⟩
  rw [filtRowWith_eq, if_neg hlegal, if_neg hdims, ite_self]

/-- FILT.ROW appends the type and the bytes of row `frow` and counts the row, in either filter mode (R183, R189). -/
theorem filtRowWith_of_present (cfg : Params) {above : List Byte}
    (hc : s.hdrChannels = 3 ∨ s.hdrChannels = 4) (hw : 0 < s.hdrWidth.toNat)
    (hrow : s.frow.toNat < s.hdrHeight.toNat) (hpresent : RowPresent s s.frow.toNat)
    (habove : rowAbove cfg.filterMode s s.frow.toNat = some above) :
    filtRowWith cfg s =
      .next
        { s with
          fb := s.fb ++ rowBytes cfg.filterMode s.hdrChannels.toNat
            (rowFromPixels s s.frow.toNat) above,
          frow := s.frow + 1 } := by
  have hexists : ¬ s.hdrHeight ≤ s.frow := not_le.mpr hrow
  rw [filtRowWith_of_legal cfg hc hw hrow, emitRow, if_neg hexists, rawRow_of_present hpresent, habove]
  rfl

end

/-- Settles O40: the two raises of the check are its first two branches. -/
theorem filterChecksItsArguments : Obligations.FilterChecksItsArguments := by
  unfold Obligations.FilterChecksItsArguments
  intro s hfirst
  have hcheck : exec .filtRow s = filtRowWith Config.hw s := rfl
  rw [hcheck, filtRowWith_eq, if_pos hfirst]
  refine ⟨fun hbad => if_pos hbad, fun hc hzero => ?_⟩
  rw [if_neg (by tauto), if_pos hzero]

/-- Settles O39: with FILTER_MODE = NONE a row is type 0 and its raw bytes. -/
theorem filtRowEmitsTheRawRow : Obligations.FiltRowEmitsTheRawRow := by
  unfold Obligations.FiltRowEmitsTheRawRow
  intro s hc hw hrow hpresent
  exact filtRowWith_of_present Config.hw hc hw hrow hpresent rfl

section
variable {s : State}

/-- A step of phase FILTER is FILT.ROW and the phase's move (R184, R262). -/
theorem step_of_filter (hhost : s.host = []) (hp : s.phase = .filter) :
    step s = andThen (exec .filtRow s) fun t => .next (advance .filtRow t) := by
  rw [step_eq_operate hhost, operate_eq_perform, issue, hp]
  rfl

/-- A row of FB on this hardware: filter type 0 and the raw bytes (R183). -/
def typedRow (s : State) (y : Nat) : List Byte := 0 :: rowFromPixels s y

/-- `s` after FILT.ROW of this hardware. -/
def withRow (s : State) : State :=
  { s with fb := s.fb ++ typedRow s s.frow.toNat, frow := s.frow + 1 }

/-- The start of DEFLATE, with the rows `rows` appended to FB (R184 and the first line of R213; log 11). -/
def afterFilter (rows : List Byte) (s : State) : State :=
  enterDeflate { s with phase := .deflate, fb := s.fb ++ rows, frow := s.hdrHeight }

theorem afterFilter_withRow (rows : List Byte) (s : State) :
    afterFilter rows (withRow s) = afterFilter (typedRow s s.frow.toNat ++ rows) s := by
  unfold afterFilter
  rw [← List.append_assoc]
  rfl

section
variable (hhost : s.host = []) (hp : s.phase = .filter) (himage : ImageDecoded s)
include hhost hp himage

/-- One row of phase FILTER, before the phase moves (R184). -/
theorem step_filter_of_imageDecoded (hrow : s.frow.toNat < s.hdrHeight.toNat) :
    step s = .next (advance .filtRow (withRow s)) := by
  have ⟨_, ⟨hw, _, hc, _⟩, _⟩ := himage
  have hexec : exec .filtRow s = .next (withRow s) :=
    filtRowEmitsTheRawRow s hc hw hrow (himage.rowPresent hrow)
  rw [step_of_filter hhost hp, hexec, andThen_next]

/-- A row with another below it: the phase stays. -/
theorem step_filter_more (hmore : s.frow.toNat + 1 < s.hdrHeight.toNat) :
    step s = .next (withRow s) := by
  have hrow := Nat.lt_of_succ_lt hmore
  have hne : (withRow s).frow ≠ (withRow s).hdrHeight := fun e =>
    ((toNat_succ_of_lt hrow).trans_lt hmore).ne (congrArg BitVec.toNat e)
  have hphase : (withRow s).phase = .filter := hp
  rw [step_filter_of_imageDecoded hhost hp himage hrow, advance_of_filter hphase, if_neg hne]

/-- The last row: the phase moves to DEFLATE. -/
theorem step_filter_last (hlast : s.frow.toNat + 1 = s.hdrHeight.toNat) :
    step s = .next (afterFilter (typedRow s s.frow.toNat) s) := by
  have hrow := Nat.lt_of_succ_le hlast.le
  have hend : s.frow + 1 = s.hdrHeight :=
    BitVec.eq_of_toNat_eq ((toNat_succ_of_lt hrow).trans hlast)
  have hphase : (withRow s).phase = .filter := hp
  rw [step_filter_of_imageDecoded hhost hp himage hrow, advance_of_filter hphase]
  simp only [withRow, afterFilter, hend, if_true]

end

/-- The `n + 1` rows still to come, in as many steps (R184, R267). -/
theorem runSteps_filter (n : Nat) (hhost : s.host = []) (hp : s.phase = .filter)
    (himage : ImageDecoded s) (hrows : s.frow.toNat + 1 + n = s.hdrHeight.toNat) :
    runSteps (n + 1) s =
      .next (afterFilter ((List.range' s.frow.toNat (n + 1)).flatMap (typedRow s)) s) := by
  induction n generalizing s with
  | zero =>
    rw [runSteps_succ, step_filter_last hhost hp himage hrows, List.range'_one,
      List.flatMap_singleton]
    rfl
  | succ n ih =>
    have hmore : s.frow.toNat + 1 < s.hdrHeight.toNat := by omega
    have hnext : (withRow s).frow.toNat = s.frow.toNat + 1 :=
      toNat_succ_of_lt (Nat.lt_of_succ_lt hmore)
    have hrows' : (withRow s).frow.toNat + 1 + n = s.hdrHeight.toNat := by omega
    rw [runSteps_succ, step_filter_more hhost hp himage hmore, andThen_next,
      ih (s := withRow s) hhost hp himage hrows', hnext, afterFilter_withRow, List.range'_succ,
      List.flatMap_cons]
    rfl

end

/-- Settles O58: from row 0 the rows still to come are all of them, and `payloadBytes` lists them. -/
theorem filterPhaseWritesThePayload : Obligations.FilterPhaseWritesThePayload := by
  unfold Obligations.FilterPhaseWritesThePayload
  intro s hi hhost hp hfirst
  obtain ⟨himage, -, hrow, hfb, -⟩ := (inv_iff hp).mp hi
  have hfrow : s.frow.toNat = 0 := congrArg BitVec.toNat hfirst
  have hnone : s.fb = [] := List.length_eq_zero_iff.mp (by rw [hfb, hfrow, Nat.zero_mul])
  obtain ⟨n, hheight⟩ := Nat.exists_eq_add_one.mpr (Nat.zero_lt_of_lt hrow)
  have hrun := runSteps_filter n hhost hp himage (by omega)
  rw [hfrow, ← List.range_eq_range', ← hheight, afterFilter, hnone] at hrun
  exact hrun

/-! The filters (R185 to R190): the machine's bytes are the numbers the spec writes. -/

section
variable (t bpp : Nat) (raw above : List Byte)

theorem toNat_paeth (a b c : Byte) : (paeth a b c).toNat = pngPredictor 4 a b c := by
  unfold paeth
  simp only [apply_ite BitVec.toNat]
  rfl

theorem toNat_predictor (a b c : Byte) : (predictor t a b c).toNat = pngPredictor t a b c := by
  match t with
  | 0 => rfl
  | 1 => rfl
  | 2 => rfl
  | 3 =>
    have ha := a.isLt
    have hb := b.isLt
    exact Nat.mod_eq_of_lt (by omega)
  | _ + 4 => exact toNat_paeth a b c

theorem toNat_filteredByte (i : Nat) :
    (filteredByte t bpp raw above i).toNat = pngFiltered t bpp raw above i := by
  simp only [filteredByte, pngFiltered, BitVec.toNat_sub, toNat_predictor]
  have hlt := (predictor t (if bpp ≤ i then raw.getD (i - bpp) 0 else 0) (above.getD i 0)
    (if bpp ≤ i then above.getD (i - bpp) 0 else 0)).isLt
  rw [toNat_predictor] at hlt
  omega

/-- The filtered row is the list of R186's numbers as bytes. -/
theorem filteredRow_eq :
    filteredRow t bpp raw above =
      (List.range raw.length).map fun i => BitVec.ofNat 8 (pngFiltered t bpp raw above i) :=
  List.map_congr_left fun i _ => by rw [← toNat_filteredByte, BitVec.ofNat_toNat, BitVec.setWidth_eq]

end

/-- Settles O42: the raw row and the row above are read, and the bytes are those of the selected type. -/
theorem adaptiveRowIsFiltered : Obligations.AdaptiveRowIsFiltered := by
  unfold Obligations.AdaptiveRowIsFiltered
  rintro s raw above t hc hw hrow hpresent hbefore rfl habove rfl
  rw [filtRowWith_of_present _ hc hw hrow hpresent (rowAbove_adaptive_of_present hbefore), ← habove,
    ← filteredRow_eq]
  rfl

/-! The adaptive choice (R188). -/

/-- A byte as a signed delta has the magnitude R188 writes. -/
theorem natAbs_toInt_byte (f : Byte) :
    f.toInt.natAbs = if f.toNat < 128 then f.toNat else 256 - f.toNat := by
  rw [BitVec.toInt_eq_toNat_cond]
  split_ifs <;> omega

theorem score_filteredRow (t bpp : Nat) (raw above : List Byte) :
    score (filteredRow t bpp raw above) =
      ((List.range raw.length).map fun i =>
        if pngFiltered t bpp raw above i < 128 then pngFiltered t bpp raw above i
        else 256 - pngFiltered t bpp raw above i).sum := by
  rw [score, filteredRow, List.map_map]
  refine congrArg List.sum (List.map_congr_left fun i _ => ?_)
  rw [Function.comp_apply, natAbs_toInt_byte, toNat_filteredByte]

/-- `t` has the least score of the types up to `n`, and is the smallest that has it. -/
def LeastScore (sc : Nat → Nat) (n t : Nat) : Prop :=
  t ≤ n ∧ ∀ u, u ≤ n → sc t ≤ sc u ∧ (u < t → sc t < sc u)

theorem leastScore_zero (sc : Nat → Nat) : LeastScore sc 0 0 :=
  ⟨le_rfl, fun u hu => by simp [Nat.le_zero.mp hu]⟩

/-- A later type takes over only with a smaller score. -/
theorem LeastScore.succ {sc : Nat → Nat} {n t : Nat} (h : LeastScore sc n t) :
    LeastScore sc (n + 1) (if sc (n + 1) < sc t then n + 1 else t) := by
  obtain ⟨hle, hleast⟩ := h
  split_ifs with hbetter
  · refine ⟨le_rfl, fun u hu => ?_⟩
    rcases hu.lt_or_eq with hlt | rfl
    · have hless := hbetter.trans_le (hleast u (Nat.le_of_lt_succ hlt)).1
      exact ⟨hless.le, fun _ => hless⟩
    · exact ⟨le_rfl, fun hself => absurd hself (lt_irrefl _)⟩
  · refine ⟨hle.trans n.le_succ, fun u hu => ?_⟩
    rcases hu.lt_or_eq with hlt | rfl
    · exact hleast u (Nat.le_of_lt_succ hlt)
    · exact ⟨not_lt.mp hbetter, fun hself => by omega⟩

/-- The selection compares the types 1 to 4 in order with the best so far (R188). -/
theorem leastScore_selectType (bpp : Nat) (raw above : List Byte) :
    LeastScore (fun u => score (filteredRow u bpp raw above)) 4 (selectType bpp raw above) :=
  (leastScore_zero _).succ.succ.succ.succ

/-- Settles O41: the scores are the machine's, and the fold keeps the least. -/
theorem adaptiveTypeHasTheLeastScore : Obligations.AdaptiveTypeHasTheLeastScore := by
  unfold Obligations.AdaptiveTypeHasTheLeastScore
  rintro bpp raw above t sc rfl hsc
  obtain rfl : sc = fun u => score (filteredRow u bpp raw above) :=
    funext fun u => (hsc u).trans (score_filteredRow u bpp raw above).symm
  exact leastScore_selectType bpp raw above

/-! Undoing the filter (R190). -/

section
variable {t bpp : Nat}

/-- The reader's neighbours are the filter's: all of them stand to the left or in the row above. -/
theorem unfilteredByte_filteredByte (hbpp : 0 < bpp) (done rest above : List Byte) (x : Byte) :
    unfilteredByte t bpp (filteredByte t bpp (done ++ x :: rest) above done.length) done above = x := by
  have hleft (h : bpp ≤ done.length) :
      (done ++ x :: rest).getD (done.length - bpp) 0 = done.getD (done.length - bpp) 0 :=
    List.getD_append _ _ _ _ (by omega)
  have hhere : (done ++ x :: rest).getD done.length 0 = x := by
    rw [List.getD_append_right _ _ _ _ le_rfl, Nat.sub_self, List.getD_cons_zero]
  simp only [unfilteredByte, filteredByte, hhere, ← toNat_predictor, BitVec.ofNat_add,
    BitVec.ofNat_toNat, BitVec.setWidth_eq]
  split_ifs with hbefore
  · rw [hleft hbefore, BitVec.sub_add_cancel]
  · rw [BitVec.sub_add_cancel]

theorem unfilterRow_filtered (hbpp : 0 < bpp) (done rest above : List Byte) :
    unfilterRow t bpp above done
      ((List.range' done.length rest.length).map (filteredByte t bpp (done ++ rest) above)) =
      done ++ rest := by
  induction rest generalizing done with
  | nil => exact (List.append_nil done).symm
  | cons x rest ih =>
    have hrest := ih (done ++ [x])
    rw [List.length_append, List.length_singleton, List.append_assoc, List.singleton_append] at hrest
    rw [List.length_cons, List.range'_succ, List.map_cons, unfilterRow,
      unfilteredByte_filteredByte hbpp, hrest]

end

/-- Settles O43: byte by byte, from an empty row. -/
theorem filtersAreReversible : Obligations.FiltersAreReversible := by
  unfold Obligations.FiltersAreReversible
  intro t bpp raw above hbpp
  rw [filteredRow, List.range_eq_range']
  exact unfilterRow_filtered hbpp [] raw above

/-! Which operation the encode side runs (R184, R213, R232). -/

section
variable {s : State}

theorem step_of_deflate (hhost : s.host = []) (hp : s.phase = .deflate) {i : Instr}
    (hnext : nextDeflate Config.hw s = i) :
    step s = andThen (exec i s) fun t => .next (advance i t) := by
  rw [step_eq_operate hhost, operate_eq_perform, issue, hp, ← hnext]
  rfl

theorem step_of_frame (hhost : s.host = []) (hp : s.phase = .frame) {i : Instr}
    (hnext : nextFrame Config.hw s = i) :
    step s = andThen (exec i s) fun t => .next (advance i t) := by
  rw [step_eq_operate hhost, operate_eq_perform, issue, hp, ← hnext]
  rfl

theorem nextDeflate_of_nil (hzs : s.zs = []) : nextDeflate Config.hw s = .zlibHeader :=
  if_pos (List.length_eq_zero_iff.mpr hzs)

theorem nextDeflate_of_lt (hzs : s.zs ≠ []) (hmore : s.blk.toNat < blockCount Config.hw s.fb.length) :
    nextDeflate Config.hw s = .deflateStored := by
  rw [nextDeflate, if_neg (mt List.length_eq_zero_iff.mp hzs), if_pos hmore]

theorem nextDeflate_of_le (hzs : s.zs ≠ []) (hall : blockCount Config.hw s.fb.length ≤ s.blk.toNat) :
    nextDeflate Config.hw s = .zlibTrailer := by
  rw [nextDeflate, if_neg (mt List.length_eq_zero_iff.mp hzs), if_neg (not_lt.mpr hall)]

theorem nextFrame_of_zero (hopos : s.opos = 0) : nextFrame Config.hw s = .pngSignature :=
  if_pos (congrArg BitVec.toNat hopos)

theorem nextFrame_of_eight (hopos : s.opos = 8) : nextFrame Config.hw s = .pngIhdr := by
  have h8 : s.opos.toNat = 8 := congrArg BitVec.toNat hopos
  rw [nextFrame, if_neg (by omega), if_pos h8]

/-- Where piece `j` begins, `opos` names it (R73, R232; log 11). -/
theorem nextFrame_of_piece {j : Nat} (hj : j < pieceCount Config.hw s.zs.length)
    (hopos : s.opos.toNat = 33 + j * (12 + Config.hw.idatMax)) :
    nextFrame Config.hw s = .pngIdat j := by
  have hcount := pieceCount_hw_eq s.zs.length
  have hpiece : (s.opos.toNat - 33) / (12 + Config.hw.idatMax) = j := by
    rw [hopos, Nat.add_sub_cancel_left]
    exact Nat.mul_div_cancel j (by rw [hw_idatMax]; omega)
  rw [hw_idatMax] at hopos
  have hmore : s.opos.toNat < 33 + 12 * pieceCount Config.hw s.zs.length + s.zs.length := by omega
  rw [nextFrame, if_neg (by omega), if_neg (by omega), if_pos hmore, hpiece]

theorem nextFrame_of_end
    (hopos : s.opos.toNat = 33 + 12 * pieceCount Config.hw s.zs.length + s.zs.length) :
    nextFrame Config.hw s = .pngIend := by
  rw [nextFrame, if_neg (by omega), if_neg (by omega), if_neg (by omega)]

end

/-- Settles O7: in each phase the place tells the operation. -/
theorem encodePhasesRunTheirOperations : Obligations.EncodePhasesRunTheirOperations := by
  unfold Obligations.EncodePhasesRunTheirOperations
  intro s hhost
  exact ⟨step_of_filter hhost,
    fun hp hzs => step_of_deflate hhost hp (nextDeflate_of_nil hzs),
    fun hp hzs hmore => step_of_deflate hhost hp (nextDeflate_of_lt hzs hmore),
    fun hp hzs hall => step_of_deflate hhost hp (nextDeflate_of_le hzs hall),
    fun hp hopos => step_of_frame hhost hp (nextFrame_of_zero hopos),
    fun hp hopos => step_of_frame hhost hp (nextFrame_of_eight hopos),
    fun j hp hj hopos => step_of_frame hhost hp (nextFrame_of_piece hj hopos),
    fun hp hopos => step_of_frame hhost hp (nextFrame_of_end hopos)⟩

end Sys2Proof.Machine
namespace Sys2Proof.Machine

/-! The splits of FB into stored blocks and of ZS into IDAT pieces (R210, R240). -/

section
variable {cfg : Params} {m n : Nat}

/-- The number of pieces of at most `m` is the least that holds all `n` (R210, R240). -/
theorem add_sub_one_div_le_iff (hm : 0 < m) (k : Nat) : (n + m - 1) / m ≤ k ↔ n ≤ k * m := by
  rw [← Nat.ceilDiv_eq_add_pred_div, ceilDiv_le_iff_le_mul hm, Nat.mul_comm]

theorem blockCount_le_iff (hm : 0 < cfg.blockMax) (k : Nat) :
    blockCount cfg n ≤ k ↔ 1 ≤ k ∧ n ≤ k * cfg.blockMax := by
  rw [blockCount, max_le_iff, add_sub_one_div_le_iff hm]

theorem pieceCount_le_iff (hm : 0 < cfg.idatMax) (k : Nat) :
    pieceCount cfg n ≤ k ↔ n ≤ k * cfg.idatMax :=
  add_sub_one_div_le_iff hm k

/-- The first `k` pieces joined in order are the bytes they cover. -/
theorem flatMap_take_drop {α : Type} (l : List α) (m k : Nat) :
    ((List.range k).flatMap fun i => (l.drop (i * m)).take m) = l.take (k * m) := by
  induction k with
  | zero => simp
  | succ k ih =>
    rw [List.range_succ, List.flatMap_append, ih, List.flatMap_singleton, Nat.succ_mul, List.take_add]

theorem flatMap_blockPiece (hm : 0 < cfg.blockMax) (fb : List Byte) :
    (List.range (blockCount cfg fb.length)).flatMap (blockPiece cfg fb) = fb :=
  (flatMap_take_drop fb _ _).trans (List.take_of_length_le ((blockCount_le_iff hm _).mp le_rfl).2)

theorem flatMap_idatPiece (hm : 0 < cfg.idatMax) (zs : List Byte) :
    (List.range (pieceCount cfg zs.length)).flatMap (idatPiece cfg zs) = zs :=
  (flatMap_take_drop zs _ _).trans (List.take_of_length_le ((pieceCount_le_iff hm _).mp le_rfl))

/-- A block before the last is full (R210). -/
theorem blockPiece_length_of_not_last (hm : 0 < cfg.blockMax) {fb : List Byte} {i : Nat}
    (hmore : i + 1 < blockCount cfg fb.length) : (blockPiece cfg fb i).length = cfg.blockMax := by
  have hcovers := (blockCount_le_iff hm (i + 1)).not.mp (not_le.mpr hmore)
  rw [Nat.succ_mul] at hcovers
  rw [blockPiece_length]
  omega

/-- No block of a non-empty FB is empty (R210). -/
theorem blockPiece_length_pos (hm : 0 < cfg.blockMax) {fb : List Byte} {i : Nat}
    (hi : i < blockCount cfg fb.length) (hfb : 0 < fb.length) :
    0 < (blockPiece cfg fb i).length := by
  have hcovers := (blockCount_le_iff hm i).not.mp (not_le.mpr hi)
  have hfirst : i = 0 → i * cfg.blockMax = 0 := fun e => by rw [e, Nat.zero_mul]
  rw [blockPiece_length]
  omega

theorem idatPiece_length_pos (hm : 0 < cfg.idatMax) {zs : List Byte} {j : Nat}
    (hj : j < pieceCount cfg zs.length) : 0 < (idatPiece cfg zs j).length := by
  have hcovers := (pieceCount_le_iff hm j).not.mp (not_le.mpr hj)
  rw [idatPiece_length]
  omega

end

/-- Settles O52: joined pieces are what they cover, and the counts are the least that cover all. -/
theorem splitsLoseNothing : Obligations.SplitsLoseNothing := by
  unfold Obligations.SplitsLoseNothing
  rintro cfg fb zs ⟨⟨hblock, -⟩, ⟨hidat, -⟩, -⟩
  refine ⟨flatMap_blockPiece hblock fb, fun i hi => ⟨?_, fun _ hfb => ?_⟩,
    flatMap_idatPiece hidat zs, fun j hj => ?_⟩
  · exact blockPiece_length_of_not_last hblock
  · exact ⟨blockPiece_length_pos hblock hi hfb, List.length_take_le _ _⟩
  · exact ⟨idatPiece_length_pos hidat hj, List.length_take_le _ _⟩

/-! One operation of DP (R202, R204, R206, R212). -/

/-- Settles O44: both are an append to ZS. -/
theorem zlibHeaderAndTrailer : Obligations.ZlibHeaderAndTrailer := by
  unfold Obligations.ZlibHeaderAndTrailer
  exact fun s => ⟨rfl, _, rfl, rfl⟩

/-- Settles O46: the two branches of the writer's alignment. -/
theorem bitsAlignPadsTheByte : Obligations.BitsAlignPadsTheByte := by
  unfold Obligations.BitsAlignPadsTheByte
  intro s
  have halign : exec .bitsAlign s = .next (bitsAlign s) := rfl
  rw [halign, bitsAlign]
  refine ⟨fun hempty => by rw [if_pos hempty], fun hfilled => ?_⟩
  have hne : s.bitcnt ≠ 0 := fun e => hfilled.ne' (congrArg BitVec.toNat e)
  rw [if_neg hne]
  rfl

/-- Settles O47: the block of `exec_deflateStored_eq`, with its header byte written out
(the model has a definition `storedBlockBytes`, hence the longer name). -/
theorem Deflate.storedBlockBytes : Obligations.StoredBlockBytes := by
  unfold Obligations.StoredBlockBytes
  rintro s n piece hbuf hbit rfl hmore rfl
  have hblock := exec_deflateStored_eq hbuf hbit hmore
  simp only [Machine.storedBlockBytes, finalFlag, decide_eq_true_eq] at hblock
  exact hblock

/-! BITS.PUT (R203): the bit stream grows bit by bit. -/

/-- The bits of `bitbuf` not yet filled are 0 (R203). -/
def UnfilledZero (s : State) : Prop := ∀ j, s.bitcnt.toNat ≤ j → s.bitbuf.getLsbD j = false

/-- `t` is `s` with `bits` more in the bit stream, and the unfilled bits again 0 (R203). -/
def AppendsBits (bits : List Bool) (s t : State) : Prop :=
  t = { s with zs := t.zs, bitbuf := t.bitbuf, bitcnt := t.bitcnt } ∧
    bitStream t = bitStream s ++ bits ∧ UnfilledZero t

theorem AppendsBits.trans {bits bits' : List Bool} {s t u : State} (h : AppendsBits bits s t)
    (h' : AppendsBits bits' t u) : AppendsBits (bits ++ bits') s u := by
  obtain ⟨hframe, hstream, -⟩ := h
  obtain ⟨hframe', hstream', hzero'⟩ := h'
  refine ⟨?_, by rw [hstream', hstream, List.append_assoc], hzero'⟩
  rw [hframe] at hframe'
  exact hframe'

/-- `bitbuf` with one more bit at `bitcnt` (R203). -/
def filledBuf (b : Bool) (s : State) : Byte :=
  s.bitbuf ||| (BitVec.ofBool b).zeroExtend 8 <<< s.bitcnt.toNat

theorem putBit_of_full (b : Bool) {s : State} (h : s.bitcnt.toNat = 7) :
    putBit b s = { s with zs := s.zs ++ [filledBuf b s], bitbuf := 0, bitcnt := 0 } :=
  if_pos (congrArg (· + 1) h)

theorem putBit_of_lt (b : Bool) {s : State} (h : s.bitcnt.toNat < 7) :
    putBit b s = { s with bitbuf := filledBuf b s, bitcnt := s.bitcnt + 1 } :=
  if_neg (by omega)

section
variable {s : State}

/-- The new bit stands at `bitcnt`, and the others are as before. -/
theorem getLsbD_filledBuf (b : Bool) (hzero : UnfilledZero s) (j : Nat) :
    (filledBuf b s).getLsbD j = if j = s.bitcnt.toNat then b else s.bitbuf.getLsbD j := by
  have hcnt := s.bitcnt.isLt
  have hbuf := hzero s.bitcnt.toNat le_rfl
  rw [filledBuf, BitVec.getLsbD_or, BitVec.getLsbD_shiftLeft]
  split_ifs with hj
  · rw [hj, hbuf, Bool.false_or, Nat.sub_self]
    simp [hcnt]
  · have hother : j < s.bitcnt.toNat ∨ j - s.bitcnt.toNat ≠ 0 := by omega
    rcases hother with hbelow | habove
    · simp [hbelow]
    · simp [habove]

/-- The filled bits are one more. -/
theorem filledBits_filledBuf (b : Bool) (hzero : UnfilledZero s) :
    (List.range (s.bitcnt.toNat + 1)).map (filledBuf b s).getLsbD =
      (List.range s.bitcnt.toNat).map s.bitbuf.getLsbD ++ [b] := by
  rw [List.range_succ, List.map_append, List.map_singleton, getLsbD_filledBuf b hzero, if_pos rfl]
  congr 1
  refine List.map_congr_left fun j hj => ?_
  rw [getLsbD_filledBuf b hzero, if_neg (List.mem_range.mp hj).ne]

theorem appendsBits_putBit (b : Bool) (hzero : UnfilledZero s) :
    AppendsBits [b] s (putBit b s) := by
  have hbits := filledBits_filledBuf b hzero
  have hcnt := s.bitcnt.isLt
  rcases (Nat.le_of_lt_succ hcnt).lt_or_eq with hlt | hfull
  · have hnext : (s.bitcnt + 1).toNat = s.bitcnt.toNat + 1 := by
      rw [BitVec.toNat_add, show (1 : BitVec 3).toNat = 1 from rfl]
      omega
    rw [putBit_of_lt b hlt]
    refine ⟨rfl, ?_, fun j hj => ?_⟩
    · simp only [bitStream, hnext, hbits, List.append_assoc]
    · simp only [hnext] at hj
      rw [getLsbD_filledBuf b hzero, if_neg (by omega), hzero j (by omega)]
  · rw [hfull] at hbits
    rw [putBit_of_full b hfull]
    refine ⟨rfl, ?_, fun j _ => BitVec.getLsbD_zero⟩
    simp only [bitStream, List.flatMap_append, List.flatMap_singleton, bitsOfByte, hbits, hfull]
    rw [← List.append_assoc]
    exact List.append_nil _

theorem appendsBits_foldl_putBit (bits : List Bool) (hzero : UnfilledZero s) :
    AppendsBits bits s (bits.foldl (fun s b => putBit b s) s) := by
  induction bits generalizing s with
  | nil => exact ⟨rfl, (List.append_nil _).symm, hzero⟩
  | cons b bits ih =>
    have hput := appendsBits_putBit b hzero
    exact hput.trans (ih hput.2.2)

end

/-- Settles O45: `bitsPut` puts the k low bits one after another. -/
theorem bitsPutAppendsBits : Obligations.BitsPutAppendsBits := by
  unfold Obligations.BitsPutAppendsBits
  intro v k s _ _ hzero
  obtain ⟨hframe, hstream, hzero'⟩ := appendsBits_foldl_putBit ((List.range k).map v.getLsbD) hzero
  obtain ⟨-, hzs, -⟩ := extendsZs_bitsPut v k s
  exact ⟨bitsPut v k s, rfl, hframe, hzs, hstream, hzero'⟩

/-! Phase DEFLATE (R213): the zlib header, the blocks still to come, the trailer. -/

/-- The bytes of block `i` of FB on this hardware (R206, R210). -/
def blockBytes (fb : List Byte) (i : Nat) : List Byte :=
  storedBlockBytes (finalFlag Config.hw fb.length i) (blockPiece Config.hw fb i)

theorem zlibBytes_eq (fb : List Byte) :
    zlibBytes Config.hw fb =
      [0x78, 0x01] ++ (List.range (blockCount Config.hw fb.length)).flatMap (blockBytes fb) ++
        be32 (adler32 fb) := rfl

/-- `s` with other values of what DEFLATE.STORED writes: ZS, `blk` and the Adler-32 registers (R206, R213). -/
def withDeflate (zs : List Byte) (blk : Offset) (ab : BitVec 16 × BitVec 16) (s : State) : State :=
  { s with zs := zs, blk := blk, adlerA := ab.1, adlerB := ab.2 }

theorem withDeflate_withDeflate (zs zs' : List Byte) (blk blk' : Offset)
    (ab ab' : BitVec 16 × BitVec 16) (s : State) :
    withDeflate zs' blk' ab' (withDeflate zs blk ab s) = withDeflate zs' blk' ab' s := rfl

theorem adlerSteps_append (ab : BitVec 16 × BitVec 16) (p q : List Byte) :
    adlerSteps ab (p ++ q) = adlerSteps (adlerSteps ab p) q :=
  List.foldl_append

/-- `s` after DEFLATE.STORED of the blocks `is` of FB, in this order (R213). -/
def withBlocks (is : List Nat) (s : State) : State :=
  withDeflate (s.zs ++ is.flatMap (blockBytes s.fb)) (s.blk + BitVec.ofNat 64 is.length)
    (adlerSteps (s.adlerA, s.adlerB) (is.flatMap (blockPiece Config.hw s.fb))) s

/-- `s` after ZLIB.TRAILER and the move to FRAME (R212, R213). -/
def withTrailer (s : State) : State :=
  { emitZs (be32 (adler32 s.fb)) { s with ckOut := adler32 s.fb } with phase := .frame }

section
variable {s : State}

theorem blockCount_hw_lt {f : Nat} (hf : f < 2 ^ 33) : blockCount Config.hw f < 2 ^ 64 := by
  rw [blockCount_hw_eq]
  omega

@[simp] theorem withTrailer_zs (s : State) :
    (withTrailer s).zs = s.zs ++ be32 (adler32 s.fb) := rfl

@[simp] theorem withTrailer_blk (s : State) : (withTrailer s).blk = s.blk := rfl

@[simp] theorem withTrailer_adlerA (s : State) : (withTrailer s).adlerA = s.adlerA := rfl

@[simp] theorem withTrailer_adlerB (s : State) : (withTrailer s).adlerB = s.adlerB := rfl

@[simp] theorem withBlocks_zs (is : List Nat) (s : State) :
    (withBlocks is s).zs = s.zs ++ is.flatMap (blockBytes s.fb) := rfl

@[simp] theorem withBlocks_blk (is : List Nat) (s : State) :
    (withBlocks is s).blk = s.blk + BitVec.ofNat 64 is.length := rfl

/-- The blocks' payloads pass through the running Adler-32 (R213). -/
theorem withBlocks_adler (is : List Nat) (s : State) :
    ((withBlocks is s).adlerA, (withBlocks is s).adlerB) =
      adlerSteps (s.adlerA, s.adlerB) (is.flatMap (blockPiece Config.hw s.fb)) := rfl

@[simp] theorem withBlocks_fb (is : List Nat) (s : State) : (withBlocks is s).fb = s.fb := rfl

/-- The phase's three parts write no more than this (R213). -/
theorem withTrailer_withBlocks_frame {bytes : List Byte} {is : List Nat} {s t : State}
    (ht : t = withTrailer (withBlocks is (emitZs bytes s))) :
    t = { s with
          phase := .frame, zs := t.zs, blk := t.blk, adlerA := t.adlerA, adlerB := t.adlerB,
          ckOut := t.ckOut } := by
  subst ht
  rfl

theorem withBlocks_nil (s : State) : withBlocks [] s = s := by
  have hzs : s.zs ++ [].flatMap (blockBytes s.fb) = s.zs := List.append_nil _
  have hblk : s.blk + BitVec.ofNat 64 ([] : List Nat).length = s.blk := BitVec.add_zero _
  rw [withBlocks, hzs, hblk]
  rfl

/-- A block and then the blocks `is` are the blocks `i :: is`. -/
theorem withBlocks_cons (i : Nat) (is : List Nat) (s : State) :
    withBlocks is (withBlocks [i] s) = withBlocks (i :: is) s := by
  have hblk : BitVec.ofNat 64 [i].length + BitVec.ofNat 64 is.length =
      BitVec.ofNat 64 (i :: is).length := by
    rw [← BitVec.ofNat_add, List.length_singleton, List.length_cons, Nat.add_comm]
  rw [withBlocks, withBlocks_zs, withBlocks_blk, withBlocks_adler, withBlocks_fb, List.append_assoc,
    BitVec.add_assoc, hblk, ← adlerSteps_append, ← List.flatMap_append, ← List.flatMap_append]
  exact withDeflate_withDeflate _ _ _ _ _ _ s

theorem step_deflate_header (hhost : s.host = []) (hp : s.phase = .deflate) (hzs : s.zs = []) :
    step s = .next (emitZs [0x78, 0x01] s) := by
  have hexec : exec .zlibHeader s = .next (emitZs [0x78, 0x01] s) := rfl
  have hphase : (emitZs [0x78, 0x01] s).phase = .deflate := hp
  rw [step_of_deflate hhost hp (nextDeflate_of_nil hzs), hexec, andThen_next,
    advance_of_deflate hphase, if_neg nofun]

/-- A step inside the blocks writes block `blk`; the phase stays. -/
theorem step_deflate_block (hhost : s.host = []) (hp : s.phase = .deflate) (hbuf : s.bitbuf = 0)
    (hbit : s.bitcnt = 0) (hzs : s.zs ≠ [])
    (hmore : s.blk.toNat < blockCount Config.hw s.fb.length) :
    step s = .next (withBlocks [s.blk.toNat] s) := by
  have hexec : exec .deflateStored s = .next (withBlocks [s.blk.toNat] s) := by
    rw [exec_deflateStored_eq hbuf hbit hmore]
    simp only [withBlocks, withDeflate, List.flatMap_singleton]
    rfl
  have hphase : (withBlocks [s.blk.toNat] s).phase = .deflate := hp
  rw [step_of_deflate hhost hp (nextDeflate_of_lt hzs hmore), hexec, andThen_next,
    advance_of_deflate hphase, if_neg nofun]

/-- The last step writes the trailer; the phase moves to FRAME. -/
theorem step_deflate_trailer (hhost : s.host = []) (hp : s.phase = .deflate) (hzs : s.zs ≠ [])
    (hall : blockCount Config.hw s.fb.length ≤ s.blk.toNat) : step s = .next (withTrailer s) := by
  have hexec : exec .zlibTrailer s =
      .next (emitZs (be32 (adler32 s.fb)) { s with ckOut := adler32 s.fb }) := rfl
  have hphase : (emitZs (be32 (adler32 s.fb)) { s with ckOut := adler32 s.fb }).phase = .deflate := hp
  rw [step_of_deflate hhost hp (nextDeflate_of_le hzs hall), hexec, andThen_next,
    advance_of_deflate hphase, if_pos rfl]
  rfl

/-- The `n` blocks still to come and the trailer, in as many steps (R213). -/
theorem runSteps_deflate (n : Nat) (hhost : s.host = []) (hp : s.phase = .deflate)
    (hbuf : s.bitbuf = 0) (hbit : s.bitcnt = 0) (hzs : s.zs ≠ [])
    (hblocks : s.blk.toNat + n = blockCount Config.hw s.fb.length)
    (hcount : blockCount Config.hw s.fb.length < 2 ^ 64) :
    runSteps (n + 1) s = .next (withTrailer (withBlocks (List.range' s.blk.toNat n) s)) := by
  induction n generalizing s with
  | zero =>
    rw [runSteps_succ, step_deflate_trailer hhost hp hzs hblocks.ge, List.range'_zero,
      withBlocks_nil]
    rfl
  | succ n ih =>
    have hnext : (withBlocks [s.blk.toNat] s).blk.toNat = s.blk.toNat + 1 := by
      change (s.blk + 1).toNat = _
      rw [BitVec.toNat_add, show (1 : Offset).toNat = 1 from rfl]
      omega
    have hblocks' : (withBlocks [s.blk.toNat] s).blk.toNat + n = blockCount Config.hw s.fb.length := by
      omega
    have hzs' : (withBlocks [s.blk.toNat] s).zs ≠ [] := List.append_ne_nil_of_left_ne_nil hzs _
    have hmore : s.blk.toNat < blockCount Config.hw s.fb.length := by omega
    rw [runSteps_succ, step_deflate_block hhost hp hbuf hbit hzs hmore, andThen_next,
      ih (s := withBlocks [s.blk.toNat] s) hhost hp hbuf hbit hzs' hblocks' hcount, hnext,
      withBlocks_cons, List.range'_succ]

section
variable (hi : Inv s) (hp : s.phase = .deflate)
include hi hp

/-- While ZS is empty no block has been written (R213). -/
theorem Inv.blk_of_zs_nil (hzs : s.zs = []) : s.blk = 0 := by
  obtain ⟨-, -, -, ⟨-, hprog⟩, -⟩ := (inv_iff hp).mp hi
  rcases hprog with ⟨-, hblk⟩ | hlen
  · exact hblk
  · rw [hzs, List.length_nil] at hlen
    omega

theorem Inv.fb_length_lt : s.fb.length < 2 ^ 33 := by
  obtain ⟨⟨-, hlegal, -⟩, -, hfb, -⟩ := (inv_iff hp).mp hi
  rw [hfb]
  exact payloadLen_lt hlegal

/-- `blk` can count all of the blocks (R30, R73). -/
theorem Inv.blockCount_lt : blockCount Config.hw s.fb.length < 2 ^ 64 :=
  blockCount_hw_lt (hi.fb_length_lt hp)

/-- Phase DEFLATE from its start: the header, the blocks from 0 on, the trailer (R213). -/
theorem runSteps_deflate_of_zs_nil (hhost : s.host = []) (hzs : s.zs = []) :
    runSteps (blockCount Config.hw s.fb.length + 2) s =
      .next (withTrailer (withBlocks (List.range (blockCount Config.hw s.fb.length))
        (emitZs [0x78, 0x01] s))) := by
  obtain ⟨-, -, -, hbuf, hbit, -⟩ := hi.common
  have hblk : s.blk.toNat = 0 := congrArg BitVec.toNat (hi.blk_of_zs_nil hp hzs)
  have hzs' : (emitZs [0x78, 0x01] s).zs ≠ [] := List.append_ne_nil_of_right_ne_nil _ nofun
  have hblocks : (emitZs [0x78, 0x01] s).blk.toNat + blockCount Config.hw s.fb.length =
      blockCount Config.hw s.fb.length := by rw [emitZs_blk, hblk, Nat.zero_add]
  have hrun := runSteps_deflate (s := emitZs [0x78, 0x01] s) _ hhost hp hbuf hbit hzs' hblocks
    (hi.blockCount_lt hp)
  rw [emitZs_blk, hblk, ← List.range_eq_range'] at hrun
  rw [runSteps_succ, step_deflate_header hhost hp hzs, andThen_next, hrun]

end

end

/-- Settles O59: the blocks of the run are all of FB, for ZS and for the running Adler-32 alike. -/
theorem deflatePhaseWritesTheStream : Obligations.DeflatePhaseWritesTheStream := by
  unfold Obligations.DeflatePhaseWritesTheStream
  intro s hi hhost hp hzs ha hb
  have hrun := runSteps_deflate_of_zs_nil hi hp hhost hzs
  generalize ht : withTrailer (withBlocks _ (emitZs _ s)) = t at hrun
  have hstream : t.zs = zlibBytes Config.hw s.fb := by
    rw [← ht, withTrailer_zs, withBlocks_zs, withBlocks_fb, emitZs_zs, emitZs_fb, hzs,
      List.nil_append, zlibBytes_eq]
  have hblk : t.blk.toNat = blockCount Config.hw s.fb.length := by
    rw [← ht, withTrailer_blk, withBlocks_blk, emitZs_blk, hi.blk_of_zs_nil hp hzs, List.length_range,
      zero_add, BitVec.toNat_ofNat, Nat.mod_eq_of_lt (hi.blockCount_lt hp)]
  have hadler : adlerValue (t.adlerA, t.adlerB) = adler32 s.fb := by
    rw [← ht, withTrailer_adlerA, withTrailer_adlerB, withBlocks_adler, emitZs_adlerA,
      emitZs_adlerB, emitZs_fb, ha, hb, flatMap_blockPiece (by decide), adler32]
  refine ⟨t, hrun, ?_, hblk, hadler⟩
  rw [← hstream]
  exact withTrailer_withBlocks_frame ht.symm

end Sys2Proof.Machine
namespace Sys2Proof.Machine

/-! One operation of PF (R231, R233, R235, R241, R243): each appends its bytes to OUT. -/

/-- `t` is `s` with `bytes` more in OUT, counted by `opos` (R31); beside them only `crc` and the model's result port may differ (R233; log 7). -/
def AppendsOut (bytes : List Byte) (s t : State) : Prop :=
  t = { emitOut bytes s with crc := t.crc, ckOut := t.ckOut }

/-- The IDAT chunk of piece `j` of ZS on this hardware (R241). -/
def idatChunk (zs : List Byte) (j : Nat) : List Byte := chunkBytes typeIdat (idatPiece Config.hw zs j)

section
variable {s t : State} {bytes : List Byte}

theorem AppendsOut.out_eq (h : AppendsOut bytes s t) : t.out = s.out ++ bytes :=
  congrArg State.out h

theorem AppendsOut.zs_eq (h : AppendsOut bytes s t) : t.zs = s.zs :=
  (congrArg State.zs h).trans rfl

theorem AppendsOut.host_eq (h : AppendsOut bytes s t) : t.host = s.host :=
  (congrArg State.host h).trans rfl

theorem AppendsOut.phase_eq (h : AppendsOut bytes s t) : t.phase = s.phase :=
  (congrArg State.phase h).trans rfl

theorem AppendsOut.headerSide_eq (h : AppendsOut bytes s t) : headerSide t = headerSide s :=
  (congrArg headerSide h).trans rfl

theorem AppendsOut.eq_of_length {n : Nat} (h : AppendsOut bytes s t) (hlen : bytes.length = n) :
    t = { s with
          out := s.out ++ bytes, opos := s.opos + BitVec.ofNat 64 n, crc := t.crc,
          ckOut := t.ckOut } := by
  subst hlen
  exact h

/-- What an append to OUT leaves unchanged. -/
theorem AppendsOut.frame (h : AppendsOut bytes s t) :
    t = { s with out := t.out, opos := t.opos, crc := t.crc, ckOut := t.ckOut } := by
  have hopos : t.opos = s.opos + BitVec.ofNat 64 bytes.length := congrArg State.opos h
  rw [h.out_eq, hopos]
  exact h

/-- The phase may be changed before or after an append to OUT. -/
theorem AppendsOut.setPhase (h : AppendsOut bytes s t) (p : Phase) :
    AppendsOut bytes { s with phase := p } { t with phase := p } := by
  have hset := congrArg (fun u : State => { u with phase := p }) h
  exact hset

theorem emitOut_emitOut (b b' : List Byte) (s : State) :
    emitOut b' (emitOut b s) = emitOut (b ++ b') s := by
  have hlen : BitVec.ofNat 64 b.length + BitVec.ofNat 64 b'.length =
      BitVec.ofNat 64 (b ++ b').length := by rw [List.length_append, BitVec.ofNat_add]
  rw [emitOut.eq_1 b', emitOut_out, emitOut_opos, List.append_assoc, BitVec.add_assoc, hlen]
  rfl

theorem AppendsOut.trans {bytes' : List Byte} {u : State} (h : AppendsOut bytes s t)
    (h' : AppendsOut bytes' t u) : AppendsOut (bytes ++ bytes') s u := by
  unfold AppendsOut at h h' ⊢
  rw [← emitOut_emitOut]
  rw [h] at h'
  exact h'

theorem exec_pngSignature_appends (s : State) :
    ∃ t, exec .pngSignature s = .next t ∧ AppendsOut pngSignatureBytes s t :=
  ⟨_, rfl, rfl⟩

/-- A chunk that is not too long is framed, and `crc` holds the remainder over its type and data (R233). -/
theorem frameChunk_appends (ty : Word32) {d : List Byte} (s : State) (hd : d.length ≤ chunkDataMax) :
    ∃ t, frameChunk ty d s = .next t ∧ AppendsOut (chunkBytes ty d) s t ∧
      t.crc = crcSteps 0xFFFFFFFF (be32 ty ++ d) :=
  ⟨_, (frameChunk_eq_next ty d).mpr ⟨hd, rfl⟩, rfl, rfl⟩

theorem exec_pngIhdr_appends {color : Byte} (hcolor : colorType s.hdrChannels = some color) :
    ∃ t, exec .pngIhdr s = .next t ∧
      AppendsOut (chunkBytes typeIhdr (ihdrPayload s.hdrWidth s.hdrHeight color)) s t := by
  have hlen : (ihdrPayload s.hdrWidth s.hdrHeight color).length ≤ chunkDataMax := by
    rw [ihdrPayload_length]
    decide
  obtain ⟨t, hframe, happ, -⟩ := frameChunk_appends typeIhdr s hlen
  have hexec : exec .pngIhdr s = execPngIhdr s := rfl
  refine ⟨t, ?_, happ⟩
  rw [hexec, execPngIhdr, hcolor]
  exact hframe

theorem exec_pngIdat_appends {j : Nat} (hj : j < pieceCount Config.hw s.zs.length) :
    ∃ t, exec (.pngIdat j) s = .next t ∧ AppendsOut (idatChunk s.zs j) s t := by
  obtain ⟨t, hframe, happ, -⟩ := frameChunk_appends typeIdat s (idatPiece_hw_length_le s.zs j)
  have hexec : exec (.pngIdat j) s = idatWith Config.hw j s := rfl
  refine ⟨t, ?_, happ⟩
  rw [hexec, idatWith, if_neg (not_le.mpr hj)]
  exact hframe

theorem exec_pngIend_appends (s : State) :
    ∃ t, exec .pngIend s = .next t ∧ AppendsOut (chunkBytes typeIend []) s t := by
  obtain ⟨t, hframe, happ, -⟩ := frameChunk_appends typeIend (d := []) s (Nat.zero_le _)
  exact ⟨t, hframe, happ⟩

end

theorem colorType_eq_colorByte {c : Byte} (hc : c = 3 ∨ c = 4) :
    colorType c = some (colorByte c) := by
  rcases hc with rfl | rfl <;> rfl

/-- The chunk types spell their names (R234). -/
theorem be32_typeIhdr : be32 typeIhdr = [0x49, 0x48, 0x44, 0x52] := rfl

theorem be32_typeIdat : be32 typeIdat = [0x49, 0x44, 0x41, 0x54] := rfl

theorem be32_typeIend : be32 typeIend = [0x49, 0x45, 0x4E, 0x44] := rfl

/-- IEND has no data, so its bytes are constant; R170 lists its CRC-32 (R243). -/
theorem chunkBytes_iend :
    chunkBytes typeIend [] = [0, 0, 0, 0, 0x49, 0x45, 0x4E, 0x44, 0xAE, 0x42, 0x60, 0x82] := by
  obtain ⟨-, -, -, -, -, -, -, -, -, -, -, -, hcrc, -⟩ := checksumCheckValues
  rw [chunkBytes, be32_typeIend, List.append_nil, List.append_nil, hcrc]
  rfl

/-- Settles O48: both append constant bytes. -/
theorem signatureAndIend : Obligations.SignatureAndIend := by
  unfold Obligations.SignatureAndIend
  intro s
  obtain ⟨t, hexec, happ⟩ := exec_pngIend_appends s
  rw [chunkBytes_iend] at happ
  exact ⟨rfl, t, hexec, happ.eq_of_length rfl⟩

/-- Settles O49: PNG.CHUNK is the framing that the other chunks use. -/
theorem pngChunkFramesItsData : Obligations.PngChunkFramesItsData := by
  unfold Obligations.PngChunkFramesItsData
  intro type data s hdata
  obtain ⟨t, hframe, happ, hcrc⟩ := frameChunk_appends type s hdata
  exact ⟨t, hframe, happ.eq_of_length (chunkBytes_length type data), hcrc⟩

/-- Settles O50: the two legal channel counts have the two color types. -/
theorem ihdrDescribesTheImage : Obligations.IhdrDescribesTheImage := by
  unfold Obligations.IhdrDescribesTheImage
  intro s color hchannels
  have hcolor : colorType s.hdrChannels = some color := by
    rcases hchannels with ⟨hc, rfl⟩ | ⟨hc, rfl⟩ <;> rw [hc] <;> rfl
  obtain ⟨t, hexec, happ⟩ := exec_pngIhdr_appends hcolor
  have heq := happ.eq_of_length (n := 25) (chunkBytes_length _ _)
  rw [chunkBytes, be32_typeIhdr, ihdrPayload_length] at heq
  exact ⟨t, hexec, heq⟩

/-- Settles O51: a piece below the count is framed, and no piece is too long for a chunk. -/
theorem idatFramesItsPiece : Obligations.IdatFramesItsPiece := by
  unfold Obligations.IdatFramesItsPiece
  rintro s j piece hj rfl
  obtain ⟨t, hexec, happ⟩ := exec_pngIdat_appends hj
  have heq := happ.eq_of_length (chunkBytes_length _ _)
  rw [idatChunk, chunkBytes, be32_typeIdat] at heq
  exact ⟨t, hexec, heq⟩

/-! Phase FRAME (R232): the signature, IHDR, the pieces still to come, IEND. -/

/-- `s` is in phase FRAME with `n` bytes in OUT, and no move of the host stands in the way. -/
def FrameAt (n : Nat) (s : State) : Prop :=
  Inv s ∧ s.host = [] ∧ s.phase = .frame ∧ s.out.length = n

/-- Where piece `j` of `z` bytes of ZS begins in OUT (R73, R232). -/
def pieceStart (z j : Nat) : Nat := 33 + 12 * j + min z (j * Config.hw.idatMax)

section
variable {s t : State} {i : Instr} {bytes zs : List Byte} {n z j : Nat}

theorem pieceStart_zero (z : Nat) : pieceStart z 0 = 33 := by
  rw [pieceStart, Nat.zero_mul, Nat.min_zero]

/-- Every piece before `j` is full if `j` is a piece (R240). -/
theorem pieceStart_of_lt (hj : j < pieceCount Config.hw z) :
    pieceStart z j = 33 + j * (12 + Config.hw.idatMax) := by
  have hcovers := (pieceCount_le_iff (by decide) j).not.mp (not_le.mpr hj)
  rw [pieceStart, min_eq_right (not_le.mp hcovers).le, Nat.mul_add]
  omega

theorem pieceStart_succ (zs : List Byte) (j : Nat) :
    pieceStart zs.length j + (idatChunk zs j).length = pieceStart zs.length (j + 1) := by
  rw [idatChunk, chunkBytes_length, idatPiece_length, pieceStart, pieceStart, Nat.succ_mul j]
  omega

/-- After the last piece all of ZS is in OUT (R240). -/
theorem pieceStart_pieceCount (z : Nat) :
    pieceStart z (pieceCount Config.hw z) = 33 + 12 * pieceCount Config.hw z + z := by
  have hcovers : z ≤ pieceCount Config.hw z * Config.hw.idatMax :=
    (pieceCount_le_iff (by decide) _).mp le_rfl
  rw [pieceStart, min_eq_left hcovers]

/-- `opos` tells how far OUT has come (R31; log 11). -/
theorem FrameAt.toNat_opos (h : FrameAt n s) : s.opos.toNat = n := by
  obtain ⟨hi, -, -, hlen⟩ := h
  obtain ⟨-, -, hopos, -⟩ := hi.common
  rw [hopos, hlen]

/-- An operation of phase FRAME other than IEND is a step to the next place. -/
theorem FrameAt.step_appends (hat : FrameAt n s) (hnext : nextFrame Config.hw s = i)
    (hne : i ≠ .pngIend) (hexec : ∃ t, exec i s = .next t ∧ AppendsOut bytes s t) :
    ∃ t, step s = .next t ∧ FrameAt (n + bytes.length) t ∧ AppendsOut bytes s t := by
  obtain ⟨hi, hhost, hp, hlen⟩ := hat
  obtain ⟨t, hexec, happ⟩ := hexec
  have hp' : t.phase = .frame := happ.phase_eq.trans hp
  have hstep : step s = .next t := by
    rw [step_of_frame hhost hp hnext, hexec, andThen_next, advance_of_frame hp', if_neg hne]
  have hlen' : t.out.length = n + bytes.length := by rw [happ.out_eq, List.length_append, hlen]
  exact ⟨t, hstep, ⟨stepKeepsTheInvariant s t hi hstep, happ.host_eq.trans hhost, hp', hlen'⟩, happ⟩

theorem FrameAt.step_signature (hat : FrameAt 0 s) :
    ∃ t, step s = .next t ∧ FrameAt 8 t ∧ AppendsOut pngSignatureBytes s t := by
  have hopos : s.opos = 0 := BitVec.eq_of_toNat_eq hat.toNat_opos
  exact hat.step_appends (nextFrame_of_zero hopos) nofun (exec_pngSignature_appends s)

theorem FrameAt.step_ihdr (hat : FrameAt 8 s) :
    ∃ t, step s = .next t ∧ FrameAt 33 t ∧
      AppendsOut
        (chunkBytes typeIhdr (ihdrPayload s.hdrWidth s.hdrHeight (colorByte s.hdrChannels))) s t := by
  have ⟨hi, _, hp, _⟩ := hat
  obtain ⟨⟨-, ⟨-, -, hchannels, -⟩, -⟩, -⟩ := (inv_iff hp).mp hi
  have hopos : s.opos = 8 := BitVec.eq_of_toNat_eq hat.toNat_opos
  have hstep := hat.step_appends (nextFrame_of_eight hopos) nofun
    (exec_pngIhdr_appends (colorType_eq_colorByte hchannels))
  rwa [chunkBytes_length, ihdrPayload_length] at hstep

theorem FrameAt.step_piece (hzs : s.zs = zs) (hat : FrameAt (pieceStart zs.length j) s)
    (hj : j < pieceCount Config.hw zs.length) :
    ∃ t, step s = .next t ∧ FrameAt (pieceStart zs.length (j + 1)) t ∧
      AppendsOut (idatChunk zs j) s t := by
  subst hzs
  have hopos := hat.toNat_opos.trans (pieceStart_of_lt hj)
  rw [← pieceStart_succ]
  exact hat.step_appends (nextFrame_of_piece hj hopos) nofun (exec_pngIdat_appends hj)

/-- The last step writes IEND; the phase moves to DONE. -/
theorem FrameAt.step_iend (hzs : s.zs = zs)
    (hat : FrameAt (pieceStart zs.length (pieceCount Config.hw zs.length)) s) :
    ∃ t, step s = .next t ∧ Inv t ∧
      AppendsOut (chunkBytes typeIend []) { s with phase := .done } t := by
  subst hzs
  have hopos := hat.toNat_opos.trans (pieceStart_pieceCount _)
  obtain ⟨hi, hhost, hp, -⟩ := hat
  obtain ⟨t, hexec, happ⟩ := exec_pngIend_appends s
  have hstep : step s = .next { t with phase := .done } := by
    rw [step_of_frame hhost hp (nextFrame_of_end hopos), hexec, andThen_next,
      advance_of_frame (happ.phase_eq.trans hp), if_pos rfl]
  exact ⟨_, hstep, stepKeepsTheInvariant _ _ hi hstep, happ.setPhase .done⟩

/-- A step that appends to OUT, before a run that appends to OUT and ends in DONE. -/
theorem runSteps_succ_appends {k : Nat} {bytes' : List Byte} (hstep : step s = .next t)
    (happ : AppendsOut bytes s t)
    (hrun : ∃ u, runSteps k t = .next u ∧ Inv u ∧ AppendsOut bytes' { t with phase := .done } u) :
    ∃ u, runSteps (k + 1) s = .next u ∧ Inv u ∧
      AppendsOut (bytes ++ bytes') { s with phase := .done } u := by
  obtain ⟨u, hrun, hi, happ'⟩ := hrun
  refine ⟨u, ?_, hi, (happ.setPhase .done).trans happ'⟩
  rw [runSteps_succ, hstep, andThen_next, hrun]

/-- The `n` pieces still to come and IEND, in as many steps (R232). -/
theorem runSteps_frame (n : Nat) (hzs : s.zs = zs) (hat : FrameAt (pieceStart zs.length j) s)
    (hpieces : j + n = pieceCount Config.hw zs.length) :
    ∃ t, runSteps (n + 1) s = .next t ∧ Inv t ∧
      AppendsOut ((List.range' j n).flatMap (idatChunk zs) ++ chunkBytes typeIend [])
        { s with phase := .done } t := by
  induction n generalizing s j with
  | zero =>
    obtain rfl : j = pieceCount Config.hw zs.length := hpieces
    obtain ⟨t, hstep, hlast⟩ := hat.step_iend hzs
    refine ⟨t, ?_, hlast⟩
    rw [runSteps_succ, hstep]
    rfl
  | succ n ih =>
    obtain ⟨t, hstep, hat', happ⟩ := hat.step_piece hzs (by omega)
    have hrest := ih (happ.zs_eq.trans hzs) hat' (by omega)
    rw [List.range'_succ, List.flatMap_cons, List.append_assoc]
    exact runSteps_succ_appends hstep happ hrest

/-- Phase FRAME from its start: the file of R232, in `m + 3` steps. -/
theorem FrameAt.runSteps_file (hat : FrameAt 0 s) :
    ∃ t, runSteps (pieceCount Config.hw s.zs.length + 3) s = .next t ∧ Inv t ∧
      AppendsOut (pngBytes Config.hw s.hdrWidth s.hdrHeight (colorByte s.hdrChannels) s.zs)
        { s with phase := .done } t := by
  obtain ⟨t, hstep, hat8, happ⟩ := hat.step_signature
  obtain ⟨u, hstep', hat33, happ'⟩ := hat8.step_ihdr
  rw [← pieceStart_zero s.zs.length] at hat33
  have hpieces := runSteps_frame _ (happ'.zs_eq.trans happ.zs_eq) hat33 (Nat.zero_add _)
  have hrun := runSteps_succ_appends hstep happ (runSteps_succ_appends hstep' happ' hpieces)
  have hheader := happ.headerSide_eq
  simp only [headerSide, Prod.mk.injEq] at hheader
  obtain ⟨hwidth, hheight, hchannels, -⟩ := hheader
  rw [← List.range_eq_range', ← List.append_assoc, ← List.append_assoc, hwidth, hheight,
    hchannels] at hrun
  exact hrun

end

/-- Settles O60: the run appends the whole file to an empty OUT, and in DONE the invariant gives its length. -/
theorem framePhaseWritesTheFile : Obligations.FramePhaseWritesTheFile := by
  unfold Obligations.FramePhaseWritesTheFile
  intro s hi hhost hp hout
  have hstart : FrameAt 0 s := ⟨hi, hhost, hp, List.length_eq_zero_iff.mpr hout⟩
  obtain ⟨t, hrun, hi', happ⟩ := hstart.runSteps_file
  have hfile : t.out = pngBytes Config.hw s.hdrWidth s.hdrHeight (colorByte s.hdrChannels) s.zs := by
    rw [happ.out_eq, hout, List.nil_append]
  have hopos : t.opos.toNat = pngLen Config.hw s.zs.length := by
    obtain ⟨-, -, hcount, -⟩ := hi'.common
    obtain ⟨-, -, -, hlen⟩ := (inv_iff happ.phase_eq).mp hi'
    rw [hcount, hlen, happ.zs_eq]
  refine ⟨t, hrun, ?_, hopos⟩
  rw [← hfile]
  exact happ.frame

end Sys2Proof.Machine
namespace Sys2Proof.Machine

/-! The commands and the host's bytes (R60, R263, R264, R270). -/

/-- Settles O22: an accepted START and an SRESET are their named effects, which are written over the state after reset. -/
theorem commandsReinitialise : Obligations.CommandsReinitialise := by
  unfold Obligations.CommandsReinitialise
  intro s
  refine ⟨fun hbusy => ?_, fun hbusy => ⟨startEffect s, ?_, rfl, rfl, rfl⟩, resetEffect s, rfl, rfl⟩
  · rw [exec_start_eq, if_pos hbusy]
  · rw [exec_start_eq, if_neg (ne_true_of_eq_false hbusy)]

theorem placeIn_of_busy {s : State} (hbusy : busy s = true) (a : Nat) (bytes : List Byte) :
    placeIn a bytes s = .refused .inputChangedWhileBusy := by
  rw [placeIn, if_pos hbusy]

theorem placeIn_of_not_busy {s : State} {a : Nat} {bytes : List Byte} (hbusy : busy s = false)
    (hfit : a + bytes.length ≤ 2 ^ 64) :
    placeIn a bytes s = .next { s with inp := Cells.writeMany s.inp a bytes } := by
  rw [placeIn, if_neg (ne_true_of_eq_false hbusy), if_neg (not_lt.mpr hfit)]

/-- Settles O27: the move is `placeIn`, whose bytes IN reads back. -/
theorem hostPlacesInput : Obligations.HostPlacesInput := by
  unfold Obligations.HostPlacesInput
  intro s a bytes moves hhost
  rw [step_cons hhost]
  refine ⟨fun hbusy => placeIn_of_busy (s := setHost moves s) hbusy a bytes,
    fun hbusy hfit => ?_⟩
  exact ⟨_, placeIn_of_not_busy (s := setHost moves s) hbusy hfit, rfl,
    fun x => Cells.read_writeMany s.inp a x bytes⟩

end Sys2Proof.Machine
namespace Sys2Proof.Machine

/-! A host that only looks on (R270; log 1): what a poll or a wait lets the block do is the block's own step. -/

section
variable {s t : State}

/-- An operation of the block leaves the moves to come, and is the same whatever they are. -/
theorem operate_setHost (moves : List HostMove) (h : operate s = .next t) :
    t.host = s.host ∧ operate (setHost moves s) = .next (setHost moves t) := by
  have hsame : SameBytes s.inp s.freeSeq s := fun _ _ => rfl
  obtain ⟨hside, hoperate⟩ := mirrors_operate (h := moves) hsame t h
  simp only [hostSide, Prod.mk.injEq] at hside
  obtain ⟨hhost, hinp, -, hseq⟩ := hside
  have hend : withSurroundings moves s.inp s.freeSeq t = setHost moves t := by
    rw [← hinp, ← hseq]
    rfl
  rw [← hend]
  exact ⟨hhost, hoperate⟩

theorem host_of_step (hhost : s.host = []) (h : step s = .next t) : t.host = [] := by
  rw [step_eq_operate hhost] at h
  exact (operate_setHost [] h).1.trans hhost

/-- IDLE, DONE and ERROR are inactive (R313). -/
theorem operate_of_not_busy (hbusy : busy s = false) : operate s = .next s := by
  rw [operate_eq_perform, issue]
  rcases busy_eq_false_iff.mp hbusy with hp | hp | hp <;> rw [hp] <;> rfl

theorem step_wait_of_busy (hbusy : busy s = true) (moves : List HostMove) :
    step (setHost (.waitEnd :: moves) s) = operate (setHost (.waitEnd :: moves) s) :=
  if_pos hbusy

theorem step_wait_of_not_busy (hbusy : busy s = false) (moves : List HostMove) :
    step (setHost (.waitEnd :: moves) s) = .next (setHost moves s) :=
  if_neg (ne_true_of_eq_false hbusy)

/-- While the host looks on, a step is an operation of the block, or, while none runs, the end of a wait. -/
theorem step_of_looksOn (hlook : HostLooksOn s) :
    (∃ moves, step s = operate (setHost moves s)) ∨
      busy s = false ∧ ∃ moves, step s = .next (setHost moves s) := by
  rcases hlook with hnone | ⟨moves, hpoll | hwait⟩
  · exact .inl ⟨s.host, step_eq_operate hnone⟩
  · exact .inl ⟨moves, step_cons hpoll⟩
  · have hs : s = setHost (.waitEnd :: moves) s := by
      rw [← hwait]
      rfl
    rw [hs]
    cases hbusy : busy s with
    | true => exact .inl ⟨_, step_wait_of_busy hbusy moves⟩
    | false => exact .inr ⟨hbusy, _, step_wait_of_not_busy hbusy moves⟩

theorem step_of_looksOn_of_not_busy (hlook : HostLooksOn s) (hbusy : busy s = false)
    (h : step s = .next t) : t = { s with host := t.host } := by
  rcases step_of_looksOn hlook with ⟨moves, hstep⟩ | ⟨-, moves, hstep⟩
  · rw [hstep, operate_of_not_busy (s := setHost moves s) hbusy] at h
    cases h
    rfl
  · rw [hstep] at h
    cases h
    rfl

theorem step_of_looksOn_of_busy (hlook : HostLooksOn s) (hbusy : busy s = true)
    (h : step s = .next t) : step (setHost [] s) = .next (setHost [] t) := by
  rcases step_of_looksOn hlook with ⟨moves, hstep⟩ | ⟨hnot, -⟩
  · rw [hstep] at h
    rw [step_eq_operate rfl]
    exact (operate_setHost (s := setHost moves s) [] h).2
  · exact absurd (hbusy.symm.trans hnot) nofun

end

/-! Where a step leaves each phase of the decoder (R261). -/

section
variable {s t : State} {i : Instr} {bytes : List Byte} {sp : CodeSpace} {a : Nat}

/-- Outside CTRL, bytes that hold no item raise (R122, R124, R126, R144). -/
theorem raisedFrom_of_decode_error {r : Reject} (hsp : sp ≠ .ctrl) (h : decode sp bytes = .error r)
    (s : State) : RaisedFrom s (raiseReject r s) := by
  cases sp with
  | header =>
    change decodeHeader bytes = _ at h
    unfold decodeHeader at h
    split at h <;> cases h
    exact ⟨.truncatedHeader, _, _, _, rfl, nofun, nofun⟩
  | chunk =>
    cases bytes with
    | nil =>
      cases h
      exact ⟨.truncatedChunk, _, _, _, rfl, nofun, nofun⟩
    | cons b1 rest =>
      rcases Nat.lt_or_ge (rest.length + 1) (chunkLen b1) with hshort | hlong
      · rw [decode_chunk_of_short hshort] at h
        cases h
        exact ⟨.truncatedChunk, _, _, _, rfl, nofun, nofun⟩
      · obtain ⟨j, -, hdecode⟩ := decode_chunk_of_le_length hlong
        rw [hdecode] at h
        cases h
  | endMarker =>
    change decodeEnd bytes = _ at h
    unfold decodeEnd at h
    split at h <;> cases h
    exact ⟨.badEndMarker, _, _, _, rfl, nofun, nofun⟩
  | ctrl => exact absurd rfl hsp

/-- A step that fetches raises, or runs the item it finds and moves the phase (R121, R300). -/
theorem step_fetch_cases (hsp : sp ≠ .ctrl) (hhost : s.host = []) (hissue : issue s = fetch sp a s)
    (h : step s = .next t) :
    RaisedFrom s t ∨
      ∃ i rest u, decode sp (inWindow s a (spaceBytes sp)) = .ok (i, rest) ∧
        exec i s = .next u ∧ ¬ RaisedFrom s u ∧ t = advance i u := by
  cases hd : decode sp (inWindow s a (spaceBytes sp)) with
  | ok item =>
    rw [step_of_fetch_ok hhost hissue hd] at h
    obtain ⟨u, hexec, hadvance⟩ := andThen_eq_next.mp h
    obtain rfl := Host.Outcome.next.inj hadvance
    by_cases hraise : RaisedFrom s u
    · rw [advance_of_raised hraise]
      exact .inl hraise
    · exact .inr ⟨item.1, item.2, u, rfl, hexec, hraise, rfl⟩
  | error r =>
    rw [step_of_fetch_error hhost hissue hd] at h
    cases h
    exact .inl (raisedFrom_of_decode_error hsp hd s)

/-- An item that fills its window leaves no bytes of it. -/
theorem rest_eq_nil_of_decode {rest : List Byte} {n : Nat}
    (hd : decode sp (inWindow s a n) = .ok (i, rest)) (hsp : sp ≠ .ctrl)
    (hlen : n ≤ (encode i).length) : rest = [] := by
  have hbytes := congrArg List.length (decodedBytesEncodeBack sp _ rest i hsp hd).2.1
  rw [List.length_append, inWindow_length] at hbytes
  exact List.length_eq_zero_iff.mp (by omega)

theorem magic_of_exec_header {m w h : Word32} {c cs : Byte} (hlen : 14 ≤ s.ilen.toNat)
    (hx : exec (.header m w h c cs) s = .next t) (hraise : ¬ RaisedFrom s t) : m = qoiMagic := by
  by_contra hm
  have hbad := ((headerRaisesItsFirstFailure Config.hw m w h c cs s).2 hlen).1 hm
  exact hraise ⟨.badMagic, _, _, _, (Host.Outcome.next.inj hx).symm.trans hbad, nofun, nofun⟩

theorem marker_of_exec_endMarker {e : Word64} (hfit : s.ipos.toNat + 8 ≤ s.ilen.toNat)
    (hx : exec (.endMarker e) s = .next t) (hraise : ¬ RaisedFrom s t) : e = endMarkerValue := by
  by_contra he
  exact hraise ⟨.badEndMarker, _, _, _,
    (Host.Outcome.next.inj hx).symm.trans (endWith_of_ne Config.hw hfit he), nofun, nofun⟩

/-- A step of DEC_HDR raises, or has decoded and latched a legal header of the right magic (R122, R261). -/
theorem step_decHdr_cases (hhost : s.host = []) (hp : s.phase = .decHdr) (h : step s = .next t) :
    RaisedFrom s t ∨
      t.phase = .decBody ∧ t.ipos = 14 ∧ HeaderLegal t ∧
        decode .header (inWindow s 0 14) =
          .ok (.header qoiMagic t.hdrWidth t.hdrHeight t.hdrChannels t.hdrColorspace, []) := by
  refine (step_fetch_cases (sp := .header) nofun hhost (issue_of_decHdr hp) h).imp_right ?_
  rintro ⟨i, rest, u, hd, hexec, hraise, rfl⟩
  obtain ⟨m, w, ht, c, cs, rfl⟩ := codeSpace_eq_header_iff.mp (decode_codeSpace hd)
  obtain ⟨hlen, hlegal, hu⟩ := (exec_header_cases hexec).resolve_left hraise
  obtain rfl := rest_eq_nil_of_decode hd nofun le_rfl
  obtain rfl := magic_of_exec_header hlen hexec hraise
  have hphase : u.phase = .decHdr := by rw [hu, hp]
  rw [advance_of_decHdr hphase]
  refine ⟨rfl, by rw [hu], hlegal, ?_⟩
  rw [hu]
  exact hd

/-- A well-formed chunk whose bytes are there writes at least one pixel; only RUN may raise instead (R127, R138, R139). -/
theorem exec_chunk_of_ready (hwf : WellFormed i) (hsp : codeSpace i = some .chunk)
    (hready : ChunkReady (encode i).length s) :
    ∃ t, exec i s = .next t ∧ (RaisedFrom s t ∨ ∃ k p, 0 < k ∧ WritesPixels k p s t) := by
  cases i with
  | rgb r g b =>
    obtain ⟨t, hexec, -, hpixel, -⟩ := (rgbMakesAPixel r g b s).1 hready
    exact ⟨t, hexec, .inr ⟨1, _, Nat.one_pos, hpixel⟩⟩
  | rgba r g b a =>
    obtain ⟨t, hexec, -, hpixel, -⟩ := (rgbaMakesAPixel r g b a s).1 hready
    exact ⟨t, hexec, .inr ⟨1, _, Nat.one_pos, hpixel⟩⟩
  | index slot =>
    obtain ⟨t, hexec, -, hpixel, -⟩ := indexReplaysASlot slot s hready
    exact ⟨t, hexec, .inr ⟨1, _, Nat.one_pos, hpixel⟩⟩
  | diff dr dg db =>
    obtain ⟨t, hexec, ⟨-, hpixel, -⟩, -⟩ := diffMakesAPixel dr dg db s hwf hready
    exact ⟨t, hexec, .inr ⟨1, _, Nat.one_pos, hpixel⟩⟩
  | luma dg x y =>
    obtain ⟨t, hexec, ⟨-, hpixel, -⟩, -⟩ := (lumaMakesAPixel dg x y s hwf).1 hready
    exact ⟨t, hexec, .inr ⟨1, _, Nat.one_pos, hpixel⟩⟩
  | run count =>
    obtain ⟨hfits, hover⟩ := runRepeatsThePreviousPixel count s hwf hready
    rcases Nat.lt_or_ge (s.pxtotal.toNat - s.pxcnt.toNat) count with hmany | hroom
    · exact ⟨_, hover hmany, .inl ⟨.runOverflow, _, _, _, rfl, nofun, nofun⟩⟩
    · obtain ⟨t, hexec, -, hpixels, -⟩ := hfits hroom
      exact ⟨t, hexec, .inr ⟨count, _, (of_decide_eq_true hwf).1, hpixels⟩⟩
  | _ => cases hsp

/-- A step of DEC_BODY raises, or writes pixels and ends the phase where none is owed any more (R124, R261). -/
theorem step_decBody_cases (hi : Inv s) (hhost : s.host = []) (hp : s.phase = .decBody)
    (h : step s = .next t) :
    RaisedFrom s t ∨
      (t.phase = .decBody ∨ t.phase = .decEnd) ∧ s.pxcnt.toNat < t.pxcnt.toNat ∧
        headerSide t = headerSide s := by
  obtain ⟨-, -, hmore, -⟩ := (inv_iff hp).mp hi
  refine (step_fetch_cases (sp := .chunk) nofun hhost (issue_of_decBody hp hmore) h).imp_right ?_
  rintro ⟨i, rest, u, hd, hexec, hraise, rfl⟩
  have hsp := decode_codeSpace hd
  have hwf : WellFormed i := (decodedBytesEncodeBack .chunk _ rest i nofun hd).2.2 rfl
  have htake := (exec_chunk_cases hsp hexec).resolve_left hraise
  have hheader := htake.headerSide
  obtain ⟨pb, cnt, cache, prev, hu, -, hfit⟩ := htake
  have hphase : u.phase = .decBody := by rw [hu, hp]
  obtain ⟨u', hexec', hpixels⟩ := exec_chunk_of_ready hwf hsp ⟨hfit, hmore⟩
  obtain rfl : u = u' := Host.Outcome.next.inj (hexec.symm.trans hexec')
  obtain ⟨k, p, hk, hcnt, -⟩ := hpixels.resolve_left hraise
  have hlt : s.pxcnt.toNat < u.pxcnt.toNat := by omega
  rw [advance_of_decBody hphase]
  split_ifs
  · exact ⟨.inr rfl, hlt, hheader⟩
  · exact ⟨.inl hphase, hlt, hheader⟩

/-- A step of DEC_END raises, or has found the end marker at `pc` and moved past it (R144, R261). -/
theorem step_decEnd_cases (hhost : s.host = []) (hp : s.phase = .decEnd) (h : step s = .next t) :
    RaisedFrom s t ∨
      t.phase = .filter ∧ t.ipos.toNat = s.ipos.toNat + 8 ∧
        decode .endMarker (inWindow s s.ipos.toNat 8) = .ok (.endMarker endMarkerValue, []) ∧
        headerSide t = headerSide s := by
  refine (step_fetch_cases (sp := .endMarker) nofun hhost (issue_of_decEnd hp) h).imp_right ?_
  rintro ⟨i, rest, u, hd, hexec, hraise, rfl⟩
  obtain ⟨e, rfl⟩ := codeSpace_eq_endMarker_iff.mp (decode_codeSpace hd)
  obtain ⟨hfit, hu⟩ := (exec_endMarker_cases hexec).resolve_left hraise
  obtain rfl := rest_eq_nil_of_decode hd nofun le_rfl
  obtain rfl := marker_of_exec_endMarker hfit hexec hraise
  have hphase : u.phase = .decEnd := by rw [hu, advancePc_phase, hp]
  rw [advance_of_decEnd hphase]
  refine ⟨rfl, ?_, hd, ?_⟩
  · rw [hu]
    exact advancePc_toNat_ipos hfit
  · rw [hu]
    rfl

end

/-! Where a step leaves each phase of the encode side (R261). -/

section
variable {s t : State}

/-- A step of FILTER emits a row, and the last row ends the phase (R184, R261). -/
theorem step_filter_cases (hi : Inv s) (hhost : s.host = []) (hp : s.phase = .filter)
    (h : step s = .next t) :
    t.frow.toNat = s.frow.toNat + 1 ∧
      (t.phase = .filter ∨ t.phase = .deflate ∧ t.frow = t.hdrHeight) := by
  obtain ⟨himage, -, hrow, -⟩ := (inv_iff hp).mp hi
  have hnext := toNat_succ_of_lt hrow
  have hphase : (withRow s).phase = .filter := hp
  rw [step_filter_of_imageDecoded hhost hp himage hrow, advance_of_filter hphase] at h
  split_ifs at h with hlast
  · cases h
    exact ⟨hnext, .inr ⟨rfl, hlast⟩⟩
  · cases h
    exact ⟨hnext, .inl hphase⟩

/-- A step of DEFLATE stays in the phase, or appends the trailer and ends it (R213, R261). -/
theorem step_deflate_cases (hi : Inv s) (hhost : s.host = []) (hp : s.phase = .deflate)
    (h : step s = .next t) :
    t.phase = .deflate ∧ t.fb = s.fb ∨ t = withTrailer s := by
  obtain ⟨-, -, -, hbuf, hbit, -⟩ := hi.common
  by_cases hzs : s.zs = []
  · rw [step_deflate_header hhost hp hzs] at h
    cases h
    exact .inl ⟨hp, rfl⟩
  rcases Nat.lt_or_ge s.blk.toNat (blockCount Config.hw s.fb.length) with hmore | hall
  · rw [step_deflate_block hhost hp hbuf hbit hzs hmore] at h
    cases h
    exact .inl ⟨hp, rfl⟩
  · rw [step_deflate_trailer hhost hp hzs hall] at h
    cases h
    exact .inr rfl

/-- The places where OUT can stand in phase FRAME: its start, after the signature, at a piece, or after the last (R232). -/
theorem frameAt_cases (hi : Inv s) (hhost : s.host = []) (hp : s.phase = .frame) :
    FrameAt 0 s ∨ FrameAt 8 s ∨
      ∃ j, j ≤ pieceCount Config.hw s.zs.length ∧ FrameAt (pieceStart s.zs.length j) s := by
  obtain ⟨-, -, -, -, hplace⟩ := (inv_iff hp).mp hi
  rcases hplace with h0 | h8 | ⟨j, hj, hpiece⟩
  · exact .inl ⟨hi, hhost, hp, h0⟩
  · exact .inr (.inl ⟨hi, hhost, hp, h8⟩)
  · exact .inr (.inr ⟨j, hj, hi, hhost, hp, hpiece⟩)

/-- A step of FRAME stays in the phase, or appends IEND and ends it (R232, R261). -/
theorem step_frame_cases (hi : Inv s) (hhost : s.host = []) (hp : s.phase = .frame)
    (h : step s = .next t) :
    t.phase = .frame ∧ t.zs = s.zs ∨
      AppendsOut (chunkBytes typeIend []) { s with phase := .done } t := by
  have stays {n : Nat} {bytes : List Byte}
      (hstep : ∃ t, step s = .next t ∧ FrameAt n t ∧ AppendsOut bytes s t) :
      t.phase = .frame ∧ t.zs = s.zs := by
    obtain ⟨u, hu, ⟨-, -, hphase, -⟩, happ⟩ := hstep
    obtain rfl : u = t := Host.Outcome.next.inj (hu.symm.trans h)
    exact ⟨hphase, happ.zs_eq⟩
  rcases frameAt_cases hi hhost hp with hat | hat | ⟨j, hj, hat⟩
  · exact .inl (stays hat.step_signature)
  · exact .inl (stays hat.step_ihdr)
  rcases hj.lt_or_eq with hmore | rfl
  · exact .inl (stays (hat.step_piece rfl hmore))
  · obtain ⟨u, hu, -, happ⟩ := hat.step_iend rfl
    obtain rfl : u = t := Host.Outcome.next.inj (hu.symm.trans h)
    exact .inr happ

end
end Sys2Proof.Machine
namespace Sys2Proof.Machine

/-! The rows of the phase table (R261): where the step goes, with what the invariant of the new state then says. -/

section
variable {s t : State}

/-- While DEFLATE runs, the trailer is still to come (R201, R213). -/
theorem Inv.zs_length_lt (hi : Inv s) (hp : s.phase = .deflate) :
    s.zs.length < zlibLen Config.hw s.fb.length := by
  obtain ⟨-, -, -, ⟨hblk, hprog⟩, -⟩ := (inv_iff hp).mp hi
  rw [zlibLen]
  rcases hprog with ⟨hzs, -⟩ | hlen
  · rw [hzs, List.length_nil]
    omega
  · omega

/-- While FRAME runs, IEND is still to come (R73, R232). -/
theorem Inv.out_length_lt (hi : Inv s) (hp : s.phase = .frame) :
    s.out.length < pngLen Config.hw s.zs.length := by
  obtain ⟨-, -, -, -, hplace⟩ := (inv_iff hp).mp hi
  have hle := FrameProgress.le hplace
  rw [pngLen]
  omega

section
variable (hi : Inv s) (hhost : s.host = []) (h : step s = .next t)
include hi hhost h

theorem phaseRow_decHdr (hp : s.phase = .decHdr) :
    t.phase = .decBody ∧ t.ipos = 14 ∧ HeaderLegal t ∧
        decode .header (inWindow s 0 14) =
          .ok (.header qoiMagic t.hdrWidth t.hdrHeight t.hdrChannels t.hdrColorspace, []) ∨
      t.phase = .error ∧ t.ipos = 0 ∧ HeaderClear t := by
  obtain ⟨-, hclear, hipos, -⟩ := (inv_iff hp).mp hi
  rcases step_decHdr_cases hhost hp h with ⟨k, o, e, f, rfl, -⟩ | hlatched
  · exact .inr ⟨rfl, hipos, hclear⟩
  · exact .inl hlatched

theorem phaseRow_decBody (hp : s.phase = .decBody) :
    t.phase = .decBody ∧ s.pxcnt.toNat < t.pxcnt.toNat ∧ t.pxcnt.toNat < t.pxtotal.toNat ∨
      t.phase = .decEnd ∧ s.pxcnt.toNat < t.pxcnt.toNat ∧ t.pxcnt = t.pxtotal ∨
      t.phase = .error ∧ t.pxcnt = s.pxcnt := by
  have hi' := stepKeepsTheInvariant s t hi h
  rcases step_decBody_cases hi hhost hp h with hraise | ⟨hbody | hend, hcnt, -⟩
  · exact .inr (.inr ⟨hraise.phase_eq, hraise.pxcnt_eq⟩)
  · obtain ⟨-, -, hmore, -⟩ := (inv_iff hbody).mp hi'
    exact .inl ⟨hbody, hcnt, hmore⟩
  · obtain ⟨⟨-, -, hfull⟩, -⟩ := (inv_iff hend).mp hi'
    exact .inr (.inl ⟨hend, hcnt, hfull⟩)

omit hi in
theorem phaseRow_decEnd (hp : s.phase = .decEnd) :
    t.phase = .filter ∧ t.ipos.toNat = s.ipos.toNat + 8 ∧
        decode .endMarker (inWindow s s.ipos.toNat 8) = .ok (.endMarker endMarkerValue, []) ∨
      t.phase = .error ∧ t.ipos = s.ipos := by
  rcases step_decEnd_cases hhost hp h with hraise | ⟨hfilter, hipos, hd, -⟩
  · exact .inr ⟨hraise.phase_eq, congrArg Prod.fst hraise.decoderSide⟩
  · exact .inl ⟨hfilter, hipos, hd⟩

theorem phaseRow_filter (hp : s.phase = .filter) :
    t.frow.toNat = s.frow.toNat + 1 ∧
      (t.phase = .filter ∧ t.frow.toNat < t.hdrHeight.toNat ∨
        t.phase = .deflate ∧ t.frow = t.hdrHeight) := by
  obtain ⟨hrow, hphase⟩ := step_filter_cases hi hhost hp h
  refine ⟨hrow, hphase.imp_left fun hfilter => ⟨hfilter, ?_⟩⟩
  obtain ⟨-, -, hmore, -⟩ := (inv_iff hfilter).mp (stepKeepsTheInvariant s t hi h)
  exact hmore

theorem phaseRow_deflate (hp : s.phase = .deflate) :
    t.phase = .deflate ∧ t.zs.length < zlibLen Config.hw s.fb.length ∨
      t.phase = .frame ∧ t.zs.length = zlibLen Config.hw s.fb.length ∧
        t.zs = s.zs ++ be32 (adler32 s.fb) := by
  have hi' := stepKeepsTheInvariant s t hi h
  rcases step_deflate_cases hi hhost hp h with ⟨hdeflate, hfb⟩ | rfl
  · rw [← hfb]
    exact .inl ⟨hdeflate, hi'.zs_length_lt hdeflate⟩
  · obtain ⟨-, -, -, hlen, -⟩ := (inv_iff (p := .frame) rfl).mp hi'
    exact .inr ⟨rfl, hlen, rfl⟩

theorem phaseRow_frame (hp : s.phase = .frame) :
    t.phase = .frame ∧ t.out.length < pngLen Config.hw s.zs.length ∨
      t.phase = .done ∧ t.out.length = pngLen Config.hw s.zs.length ∧
        t.out = s.out ++ [0, 0, 0, 0, 0x49, 0x45, 0x4E, 0x44, 0xAE, 0x42, 0x60, 0x82] := by
  have hi' := stepKeepsTheInvariant s t hi h
  rcases step_frame_cases hi hhost hp h with ⟨hframe, hzs⟩ | happ
  · rw [← hzs]
    exact .inl ⟨hframe, hi'.out_length_lt hframe⟩
  · have hdone : t.phase = .done := happ.phase_eq
    have hout := happ.out_eq
    have hzs : t.zs = s.zs := happ.zs_eq
    obtain ⟨-, -, -, hlen⟩ := (inv_iff hdone).mp hi'
    rw [chunkBytes_iend] at hout
    rw [hzs] at hlen
    exact .inr ⟨hdone, hlen, hout⟩

end

/-! The host's moves (R36, R263, R264, R320). -/

theorem phase_of_write_ctrl {v : Word64} (h : hostMove (.write .ctrl v) s = .next t) :
    t.phase =
      if v.getLsbD 1 then .idle
      else if v.getLsbD 0 ∧ busy s = false then .decHdr else s.phase := by
  rw [hostMove_write_ctrl, exec_start_eq] at h
  split_ifs at h with hsreset hstart hbusy
  · cases h
    rw [if_pos hsreset]
    rfl
  · cases h
    rw [if_neg hsreset, if_neg fun hand => ne_true_of_eq_false hand.2 hbusy]
  · cases h
    rw [if_neg hsreset, if_pos ⟨hstart, by simpa using hbusy⟩]
    rfl
  · cases h
    rw [if_neg hsreset, if_neg fun hand => hstart hand.1]

theorem phase_of_write {r : HostReg} {v : Word64} (hctrl : r ≠ .ctrl)
    (h : hostMove (.write r v) s = .next t) : t.phase = s.phase := by
  by_cases hilen : r = .ilen
  · subst hilen
    simp only [hostMove, writeIlen_eq] at h
    cases h
    rfl
  · rw [hostMove_write_readOnly hctrl hilen] at h
    cases h
    rfl

theorem phase_of_placeIn {offset : Nat} {bytes : List Byte}
    (h : hostMove (.placeIn offset bytes) s = .next t) : t.phase = s.phase := by
  simp only [hostMove, placeIn] at h
  split_ifs at h
  cases h
  rfl

end

/-- Settles O8: while the host looks on the step is the block's, with its row for each phase; every other move is a command, a reset, or leaves the phase. -/
theorem phaseChangesFollowTheTable : Obligations.PhaseChangesFollowTheTable := by
  unfold Obligations.PhaseChangesFollowTheTable
  intro s t hi h
  refine ⟨fun hlook => ?_, fun v moves hhost => ?_, fun moves hhost => ?_,
    fun r v moves hhost hctrl => ?_, fun a bytes moves hhost => ?_⟩
  · have hstep {p : Phase} (hbusy : busyPhase p = true) (hp : s.phase = p) :
        step (setHost [] s) = .next (setHost [] t) :=
      step_of_looksOn_of_busy hlook ((congrArg busyPhase hp).trans hbusy) h
    exact ⟨fun hp => step_of_looksOn_of_not_busy hlook (busy_eq_false_iff.mpr hp) h,
      fun hp => phaseRow_decHdr (s := setHost [] s) (t := setHost [] t)
        hi rfl (hstep rfl hp) hp,
      fun hp => phaseRow_decBody (s := setHost [] s) (t := setHost [] t)
        hi rfl (hstep rfl hp) hp,
      fun hp => phaseRow_decEnd (s := setHost [] s) (t := setHost [] t)
        rfl (hstep rfl hp) hp,
      fun hp => phaseRow_filter (s := setHost [] s) (t := setHost [] t)
        hi rfl (hstep rfl hp) hp,
      fun hp => phaseRow_deflate (s := setHost [] s) (t := setHost [] t)
        hi rfl (hstep rfl hp) hp,
      fun hp => phaseRow_frame (s := setHost [] s) (t := setHost [] t)
        hi rfl (hstep rfl hp) hp⟩
  · rw [step_cons hhost] at h
    exact phase_of_write_ctrl (s := setHost moves s) h
  · rw [step_cons hhost] at h
    cases h
    rfl
  · rw [step_cons hhost] at h
    exact phase_of_write (s := setHost moves s) hctrl h
  · rw [step_cons hhost] at h
    exact phase_of_placeIn (s := setHost moves s) h

end Sys2Proof.Machine
namespace Sys2Proof.Machine

/-! Every operation ends (R267): the steps of each phase, counted back from DONE. -/

/-- Some run of at most `n` steps from `s` reaches DONE or ERROR. -/
def EndsWithin (n : Nat) (s : State) : Prop :=
  ∃ k t, k ≤ n ∧ runSteps k s = .next t ∧ (t.phase = .done ∨ t.phase = .error)

/-- A state that meets the invariant, with no move of the host to come: the run from it is the block's own. -/
def Quiet (s : State) : Prop := Inv s ∧ s.host = []

/-- The `m + 3` steps of FRAME, by the header registers (R232). -/
def frameSteps (s : State) : Nat := pieceCount Config.hw (zlibLen Config.hw (payloadLen s)) + 3

/-- The `n + 2` steps of DEFLATE and those after them (R213). -/
def deflateSteps (s : State) : Nat := blockCount Config.hw (payloadLen s) + 2 + frameSteps s

/-- The `h` steps of FILTER and those after them (R184). -/
def filterSteps (s : State) : Nat := s.hdrHeight.toNat + deflateSteps s

section
variable {s t : State} {j k m n : Nat}

theorem stepsAfterHeader_eq (s : State) :
    stepsAfterHeader s = s.pxtotal.toNat + 1 + filterSteps s := by
  rw [stepsAfterHeader, filterSteps, deflateSteps, frameSteps]
  omega

theorem filterSteps_congr (h : headerSide t = headerSide s) : filterSteps t = filterSteps s := by
  simp only [headerSide, Prod.mk.injEq] at h
  obtain ⟨hwidth, hheight, hchannels, -⟩ := h
  simp only [filterSteps, deflateSteps, frameSteps, payloadLen, rowLen, hwidth, hheight, hchannels]

theorem pxtotal_of_headerSide (h : headerSide t = headerSide s) : t.pxtotal = s.pxtotal := by
  simp only [headerSide, Prod.mk.injEq] at h
  obtain ⟨-, -, -, -, htotal⟩ := h
  exact htotal

/-! Runs. -/

theorem runSteps_one (s : State) : runSteps 1 s = step s := by
  rw [runSteps_succ]
  cases step s <;> rfl

theorem runSteps_add (h : runSteps j s = .next t) (k : Nat) :
    runSteps (j + k) s = runSteps k t := by
  induction j generalizing s with
  | zero =>
    cases h
    rw [Nat.zero_add]
  | succ j ih =>
    rw [runSteps_succ] at h
    obtain ⟨u, hstep, hrest⟩ := andThen_eq_next.mp h
    rw [Nat.succ_add, runSteps_succ, hstep, andThen_next, ih hrest]

theorem Quiet.step (hq : Quiet s) : ∃ t, step s = .next t ∧ Quiet t := by
  obtain ⟨hi, hhost⟩ := hq
  obtain ⟨t, h⟩ := noOperationStops s hi (.inl hhost)
  exact ⟨t, h, stepKeepsTheInvariant s t hi h, host_of_step hhost h⟩

theorem Quiet.runSteps (hq : Quiet s) (h : runSteps k s = .next t) : Quiet t := by
  induction k generalizing s with
  | zero =>
    cases h
    exact hq
  | succ k ih =>
    obtain ⟨u, hstep, hu⟩ := hq.step
    rw [runSteps_succ, hstep] at h
    exact ih hu h

theorem EndsWithin.of_ended (h : t.phase = .done ∨ t.phase = .error) : EndsWithin 0 t :=
  ⟨0, t, le_rfl, rfl, h⟩

theorem EndsWithin.mono (h : EndsWithin m s) (hle : m ≤ n) : EndsWithin n s := by
  obtain ⟨k, t, hk, hrun, hend⟩ := h
  exact ⟨k, t, hk.trans hle, hrun, hend⟩

theorem EndsWithin.of_run (h : EndsWithin n t) (hrun : runSteps k s = .next t) :
    EndsWithin (k + n) s := by
  obtain ⟨j, u, hj, hrest, hend⟩ := h
  exact ⟨k + j, u, Nat.add_le_add_left hj k, (runSteps_add hrun j).trans hrest, hend⟩

theorem EndsWithin.of_step (h : EndsWithin n t) (hstep : step s = .next t) :
    EndsWithin (1 + n) s :=
  h.of_run ((runSteps_one s).trans hstep)

/-- A raise ends the operation (R300). -/
theorem endsWithin_of_raised (hstep : step s = .next t) (h : RaisedFrom s t) : EndsWithin 1 s :=
  (EndsWithin.of_ended (.inr h.phase_eq)).of_step hstep

/-! FRAME, DEFLATE, FILTER. -/

theorem FrameAt.endsWithin (hat : FrameAt (pieceStart s.zs.length j) s)
    (hj : j ≤ pieceCount Config.hw s.zs.length) :
    EndsWithin (pieceCount Config.hw s.zs.length + 1) s := by
  obtain ⟨t, hrun, -, happ⟩ := runSteps_frame _ rfl hat (Nat.add_sub_of_le hj)
  exact ⟨_, t, by omega, hrun, .inl happ.phase_eq⟩

theorem endsWithin_frame (hq : Quiet s) (hp : s.phase = .frame) : EndsWithin (frameSteps s) s := by
  obtain ⟨hi, hhost⟩ := hq
  obtain ⟨-, -, hfb, hzs, -⟩ := (inv_iff hp).mp hi
  have hsteps : frameSteps s = pieceCount Config.hw s.zs.length + 3 := by
    rw [frameSteps, hzs, hfb]
  rw [hsteps]
  rcases frameAt_cases hi hhost hp with hat | hat | ⟨j, hj, hat⟩
  · obtain ⟨t, hrun, -, happ⟩ := hat.runSteps_file
    exact ⟨_, t, le_rfl, hrun, .inl happ.phase_eq⟩
  · obtain ⟨t, hstep, hat', happ⟩ := hat.step_ihdr
    rw [← pieceStart_zero t.zs.length] at hat'
    have hends := (hat'.endsWithin (Nat.zero_le _)).of_step hstep
    rw [happ.zs_eq] at hends
    exact hends.mono (by omega)
  · exact (hat.endsWithin hj).mono (by omega)

theorem endsWithin_deflate (hq : Quiet s) (hp : s.phase = .deflate) :
    EndsWithin (deflateSteps s) s := by
  have ⟨hi, hhost⟩ := hq
  obtain ⟨-, -, -, hbuf, hbit, -⟩ := hi.common
  obtain ⟨-, -, hfb, ⟨hblk, -⟩, -⟩ := (inv_iff hp).mp hi
  rw [deflateSteps, ← hfb]
  by_cases hzs : s.zs = []
  · have hrun := runSteps_deflate_of_zs_nil hi hp hhost hzs
    exact (endsWithin_frame (hq.runSteps hrun) rfl).of_run hrun
  · have hrun := runSteps_deflate _ hhost hp hbuf hbit hzs (Nat.add_sub_of_le hblk)
      (hi.blockCount_lt hp)
    exact ((endsWithin_frame (hq.runSteps hrun) rfl).of_run hrun).mono
      (Nat.add_le_add_right (by omega) _)

theorem endsWithin_filter (hq : Quiet s) (hp : s.phase = .filter) : EndsWithin (filterSteps s) s := by
  have ⟨hi, hhost⟩ := hq
  obtain ⟨himage, -, hrow, -⟩ := (inv_iff hp).mp hi
  have hrun := runSteps_filter _ hhost hp himage (Nat.add_sub_of_le hrow)
  exact ((endsWithin_deflate (hq.runSteps hrun) rfl).of_run hrun).mono
    (Nat.add_le_add_right (by omega) _)

/-! The decoder's phases. -/

theorem endsWithin_decEnd (hq : Quiet s) (hp : s.phase = .decEnd) :
    EndsWithin (1 + filterSteps s) s := by
  obtain ⟨t, hstep, hq'⟩ := hq.step
  rcases step_decEnd_cases hq.2 hp hstep with hraise | ⟨hfilter, -, -, hheader⟩
  · exact (endsWithin_of_raised hstep hraise).mono (Nat.le_add_right _ _)
  · rw [← filterSteps_congr hheader]
    exact (endsWithin_filter hq' hfilter).of_step hstep

/-- Every chunk makes a pixel, so the pixels owed bound the chunks (R127, R267). -/
theorem endsWithin_decBody (hq : Quiet s) (hp : s.phase = .decBody)
    (howed : s.pxtotal.toNat - s.pxcnt.toNat ≤ n) : EndsWithin (n + 1 + filterSteps s) s := by
  induction n generalizing s with
  | zero =>
    obtain ⟨-, -, hmore, -⟩ := (inv_iff hp).mp hq.1
    omega
  | succ n ih =>
    obtain ⟨t, hstep, hq'⟩ := hq.step
    rcases step_decBody_cases hq.1 hq.2 hp hstep with hraise | ⟨hphase, hcnt, hheader⟩
    · exact (endsWithin_of_raised hstep hraise).mono (by omega)
    have htotal := pxtotal_of_headerSide hheader
    have hends : EndsWithin (n + 1 + filterSteps t) t := by
      rcases hphase with hbody | hend
      · exact ih hq' hbody (by rw [htotal]; omega)
      · exact (endsWithin_decEnd hq' hend).mono (by omega)
    rw [filterSteps_congr hheader] at hends
    exact (hends.of_step hstep).mono (by omega)

/-- R267's count, from wherever the operation stands once its header is accepted. -/
theorem endsWithin_stepsAfterHeader (hq : Quiet s) (hafter : AfterHeader s) :
    EndsWithin (stepsAfterHeader s) s := by
  rw [stepsAfterHeader_eq, filterSteps, deflateSteps]
  rcases hafter with hp | hp | hp | hp | hp | hp
  · exact endsWithin_decBody hq hp (Nat.sub_le _ _)
  · exact (endsWithin_decEnd hq hp).mono (by rw [filterSteps, deflateSteps]; omega)
  · exact (endsWithin_filter hq hp).mono (by rw [filterSteps, deflateSteps]; omega)
  · exact (endsWithin_deflate hq hp).mono (by rw [deflateSteps]; omega)
  · exact (endsWithin_frame hq hp).mono (by omega)
  · exact (EndsWithin.of_ended (.inl hp)).mono (Nat.zero_le _)

/-- DEC_HDR takes one step more, to ERROR or to an accepted header (R122). -/
theorem exists_endsWithin (hq : Quiet s) (hbusy : busy s = true) : ∃ n, EndsWithin n s := by
  unfold busy at hbusy
  cases hp : s.phase with
  | decHdr =>
    obtain ⟨t, hstep, hq'⟩ := hq.step
    rcases step_decHdr_cases hq.2 hp hstep with hraise | ⟨hbody, -⟩
    · exact ⟨_, endsWithin_of_raised hstep hraise⟩
    · exact ⟨_, (endsWithin_stepsAfterHeader hq' (.inl hbody)).of_step hstep⟩
  | decBody | decEnd | filter | deflate | frame =>
    exact ⟨_, endsWithin_stepsAfterHeader hq (by simp [AfterHeader, hp])⟩
  | idle | done | error =>
    rw [hp] at hbusy
    cases hbusy

/-! A host that waits (R270; log 1). -/

/-- Under a wait the block runs as by itself, and where its operation has ended the next step ends the wait. -/
theorem exists_runSteps_wait (hhost : s.host = []) (hrun : runSteps k s = .next t)
    (hend : busy t = false) (moves : List HostMove) :
    ∃ k', runSteps k' (setHost (.waitEnd :: moves) s) = .next (setHost moves t) := by
  induction k generalizing s with
  | zero =>
    cases hrun
    exact ⟨1, (runSteps_one _).trans (step_wait_of_not_busy hend moves)⟩
  | succ k ih =>
    rw [runSteps_succ] at hrun
    obtain ⟨u, hstep, hrest⟩ := andThen_eq_next.mp hrun
    obtain ⟨k', hwait⟩ := ih (host_of_step hhost hstep) hrest
    rw [step_eq_operate hhost] at hstep
    cases hbusy : busy s with
    | true =>
      refine ⟨k' + 1, ?_⟩
      rw [runSteps_succ, step_wait_of_busy hbusy, (operate_setHost _ hstep).2, andThen_next, hwait]
    | false =>
      rw [operate_of_not_busy hbusy] at hstep
      cases hstep
      exact ⟨k', hwait⟩

end

/-- Settles O56: each phase ends within its count, counted back from DONE; a wait changes nothing of that and is over when the operation is. -/
theorem everyOperationEnds : Obligations.EveryOperationEnds := by
  unfold Obligations.EveryOperationEnds
  intro s hi hhost hbusy
  obtain ⟨n, k, t, -, hrun, hend⟩ := exists_endsWithin ⟨hi, hhost⟩ hbusy
  refine ⟨⟨k, t, hrun, hend⟩, endsWithin_stepsAfterHeader ⟨hi, hhost⟩, fun moves => ?_⟩
  obtain ⟨k', hwait⟩ := exists_runSteps_wait hhost hrun (busy_eq_false_iff.mpr (.inr hend)) moves
  exact ⟨k', setHost moves t, hwait, rfl, hend⟩

end Sys2Proof.Machine
namespace Sys2Proof.Machine

/-! What a raise leaves (R300). -/

/-- An operation that finds the block inactive changes nothing (R313). -/
theorem step_of_not_busy {s : State} (hhost : s.host = []) (hbusy : busy s = false) :
    step s = .next s := by
  rw [step_eq_operate hhost, operate_of_not_busy hbusy]

/-- Settles O28: `raise` is R300's record update, its kinds are R284's cause by cause, and ERROR is inactive. -/
theorem raiseWritesTheLatches : Obligations.RaiseWritesTheLatches := by
  unfold Obligations.RaiseWritesTheLatches
  rintro k o e f s _ rfl
  refine ⟨fun hk => ?_, rfl, rfl, rfl, rfl, rfl, rfl, rfl, rfl, fun a => ⟨rfl, rfl⟩, rfl, rfl, rfl, rfl,
    rfl, fun hhost => step_of_not_busy hhost rfl⟩
  rw [raise_errKind]
  cases k with
  | none => exact absurd rfl hk
  | _ => decide

/-! Where an exception of the decoder points (R303), and which registers it leaves (R301). -/

section
variable {s t : State} {i : Instr} {sp : CodeSpace} {bytes : List Byte} {n : Nat}

/-- An operation that keeps the phase, or whose exception points at the first byte of its item (R303). -/
def FailsAtPc (s t : State) : Prop := t.phase = s.phase ∨ t.errOffset = s.ipos

theorem FailsAtPc.errOffset_eq (h : FailsAtPc s t) (hs : s.phase ≠ .error) (ht : t.phase = .error) :
    t.errOffset = s.ipos :=
  h.resolve_left fun hphase => hs (hphase.symm.trans ht)

theorem AddsPixels.phase_eq (h : AddsPixels s t) : t.phase = s.phase := by
  obtain ⟨pb, cnt, rfl, -⟩ := h
  rfl

theorem phase_of_putPixel {p : Pixel} (h : putPixel n p s = .next t) : t.phase = s.phase := by
  obtain ⟨-, rfl⟩ := (putPixel_eq_next n p).mp h
  rfl

/-- The presence checks point at the chunk (R124, R126), so what follows them decides. -/
theorem failsAtPc_of_withChunk {k : State → Result} (h : withChunk n s k = .next t)
    (hk : k s = .next t → FailsAtPc s t) : FailsAtPc s t := by
  rcases (withChunk_eq_next n k).mp h with ⟨-, rfl⟩ | ⟨-, -, rfl⟩ | ⟨-, -, hrest⟩
  · exact .inr rfl
  · exact .inr rfl
  · exact hk hrest

theorem exec_chunk_failsAtPc (hi : codeSpace i = some .chunk) (h : exec i s = .next t) :
    FailsAtPc s t := by
  cases i with
  | rgb | rgba | diff | luma => exact failsAtPc_of_withChunk h fun hput => .inl (phase_of_putPixel hput)
  | index slot =>
    simp only [exec, execIndex] at h
    refine failsAtPc_of_withChunk h fun hindex => .inl ?_
    obtain ⟨u, hproduce, hrest⟩ := andThen_eq_next.mp hindex
    cases hrest
    exact (addsPixels_of_produce hproduce).phase_eq
  | run count =>
    simp only [exec, execRun] at h
    refine failsAtPc_of_withChunk h fun hrun => ?_
    split_ifs at hrun
    · cases hrun
      exact .inr rfl
    · obtain ⟨u, hproduce, hrest⟩ := andThen_eq_next.mp hrun
      cases hrest
      exact .inl (addsPixels_of_produceMany hproduce).phase_eq
  | _ => cases hi

/-- END points at the marker; TRAILING_DATA, which would point past it, this hardware never raises (R7, R144, R145). -/
theorem exec_endMarker_failsAtPc {m : Word64} (h : exec (.endMarker m) s = .next t) :
    FailsAtPc s t := by
  have ht : endWith Config.hw m s = t := Host.Outcome.next.inj h
  rw [← ht, endWith]
  split_ifs
  · exact .inr rfl
  · exact .inr rfl
  · rw [trailingCheck_of_ignore hw_trailing]
    exact .inl rfl

/-- A chunk or an end marker that is cut short is reported at `pc` (R124, R126, R144). -/
theorem failsAtPc_of_decode_error {r : Reject} (hsp : sp = .chunk ∨ sp = .endMarker)
    (hd : decode sp bytes = .error r) (s : State) : FailsAtPc s (raiseReject r s) := by
  rcases hsp with rfl | rfl
  · cases bytes with
    | nil =>
      cases hd
      exact .inr rfl
    | cons b1 rest =>
      rcases Nat.lt_or_ge (rest.length + 1) (chunkLen b1) with hshort | hlong
      · rw [decode_chunk_of_short hshort] at hd
        cases hd
        exact .inr rfl
      · obtain ⟨j, -, hdecode⟩ := decode_chunk_of_le_length hlong
        cases hdecode.symm.trans hd
  · change decodeEnd bytes = _ at hd
    unfold decodeEnd at hd
    split at hd <;> cases hd
    exact .inr rfl

theorem ite_eq_or_phase_ne_error {c : Prop} [Decidable c] (hs : s.phase ≠ .error) :
    (if c then s else t) = t ∨ (if c then s else t).phase ≠ .error := by
  split_ifs
  · exact .inr hs
  · exact .inl rfl

/-- The phase's move leaves the state or enters a phase of the table, none of which is ERROR (R261). -/
theorem advance_eq_or_phase_ne_error (i : Instr) (t : State) :
    advance i t = t ∨ (advance i t).phase ≠ .error := by
  cases hp : t.phase with
  | idle | done | error =>
    unfold advance
    rw [hp]
    exact .inl rfl
  | decHdr =>
    rw [advance_of_decHdr hp]
    exact .inr nofun
  | decBody =>
    rw [advance_of_decBody hp]
    exact ite_eq_or_phase_ne_error nofun
  | decEnd =>
    rw [advance_of_decEnd hp]
    exact .inr nofun
  | filter =>
    rw [advance_of_filter hp]
    exact ite_eq_or_phase_ne_error nofun
  | deflate =>
    rw [advance_of_deflate hp]
    exact ite_eq_or_phase_ne_error nofun
  | frame =>
    rw [advance_of_frame hp]
    exact ite_eq_or_phase_ne_error nofun

/-- A step that fetches at `pc` and ends in ERROR has latched `pc` (R303). -/
theorem errOffset_of_step_fetch {a : Nat} (hsp : sp = .chunk ∨ sp = .endMarker)
    (hhost : s.host = []) (hissue : issue s = fetch sp a s) (hs : s.phase ≠ .error)
    (h : step s = .next t) (ht : t.phase = .error) : t.errOffset = s.ipos := by
  cases hd : decode sp (inWindow s a (spaceBytes sp)) with
  | ok item =>
    rw [step_of_fetch_ok hhost hissue hd] at h
    obtain ⟨u, hexec, hadvance⟩ := andThen_eq_next.mp h
    obtain rfl := Host.Outcome.next.inj hadvance
    have hstays := (advance_eq_or_phase_ne_error item.1 u).resolve_right (not_not.mpr ht)
    rw [hstays] at ht ⊢
    have hitem := decode_codeSpace hd
    rcases hsp with rfl | rfl
    · exact (exec_chunk_failsAtPc hitem hexec).errOffset_eq hs ht
    · obtain ⟨m, hi⟩ := codeSpace_eq_endMarker_iff.mp hitem
      rw [hi] at hexec
      exact (exec_endMarker_failsAtPc hexec).errOffset_eq hs ht
  | error r =>
    rw [step_of_fetch_error hhost hissue hd] at h
    cases h
    exact (failsAtPc_of_decode_error hsp hd s).errOffset_eq hs ht

/-- The block's own step enters ERROR by a raise of the decoder, and after HEADER the raise points at `pc` (R301, R303). -/
theorem step_error_cases (hi : Inv s) (hhost : s.host = []) (hs : s.phase ≠ .error)
    (h : step s = .next t) (ht : t.phase = .error) :
    RaisedFrom s t ∧
      (s.phase = .decHdr ∧ s.ipos = 0 ∨
        (s.phase = .decBody ∨ s.phase = .decEnd) ∧ t.errOffset = s.ipos) := by
  have elsewhere {p : Phase} (hp : t.phase = p) (hne : p ≠ .error) {P : Prop} : P :=
    absurd (hp.symm.trans ht) hne
  cases hp : s.phase with
  | decHdr =>
    obtain ⟨-, -, hipos, -⟩ := (inv_iff hp).mp hi
    rcases step_decHdr_cases hhost hp h with hraise | ⟨hbody, -⟩
    · exact ⟨hraise, .inl ⟨rfl, hipos⟩⟩
    · exact elsewhere hbody nofun
  | decBody =>
    obtain ⟨-, -, hmore, -⟩ := (inv_iff hp).mp hi
    have hoffset := errOffset_of_step_fetch (.inl rfl) hhost (issue_of_decBody hp hmore) hs h ht
    rcases step_decBody_cases hi hhost hp h with hraise | ⟨hbody | hend, -⟩
    · exact ⟨hraise, .inr ⟨.inl rfl, hoffset⟩⟩
    · exact elsewhere hbody nofun
    · exact elsewhere hend nofun
  | decEnd =>
    have hoffset := errOffset_of_step_fetch (.inr rfl) hhost (issue_of_decEnd hp) hs h ht
    rcases step_decEnd_cases hhost hp h with hraise | ⟨hfilter, -⟩
    · exact ⟨hraise, .inr ⟨.inr rfl, hoffset⟩⟩
    · exact elsewhere hfilter nofun
  | filter =>
    rcases (step_filter_cases hi hhost hp h).2 with hfilter | ⟨hdeflate, -⟩
    · exact elsewhere hfilter nofun
    · exact elsewhere hdeflate nofun
  | deflate =>
    rcases phaseRow_deflate hi hhost h hp with ⟨hdeflate, -⟩ | ⟨hframe, -⟩
    · exact elsewhere hdeflate nofun
    · exact elsewhere hframe nofun
  | frame =>
    rcases phaseRow_frame hi hhost h hp with ⟨hframe, -⟩ | ⟨hdone, -⟩
    · exact elsewhere hframe nofun
    · exact elsewhere hdone nofun
  | idle | done =>
    rw [step_of_not_busy hhost (congrArg busyPhase hp)] at h
    cases h
    exact absurd ht hs
  | error => exact absurd hp hs

end

/-- Settles O29: while the host looks on, ERROR is entered from a busy phase by the block's own step, whose raise keeps every register named. -/
theorem exceptionsArePrecise : Obligations.ExceptionsArePrecise := by
  unfold Obligations.ExceptionsArePrecise
  intro s t hi hlook hs h ht
  cases hbusy : busy s with
  | false =>
    have hkept := congrArg State.phase (step_of_looksOn_of_not_busy hlook hbusy h)
    exact absurd (hkept.symm.trans ht) hs
  | true =>
    have hstep := step_of_looksOn_of_busy hlook hbusy h
    obtain ⟨⟨k, o, e, f, hraise, -⟩, hwhere⟩ :=
      step_error_cases (s := setHost [] s) (t := setHost [] t) hi rfl hs hstep ht
    have kept {α : Type} (field : State → α) :
        field (setHost [] t) = field (raise k o e f (setHost [] s)) := congrArg field hraise
    have hipos : t.ipos = s.ipos := kept State.ipos
    refine ⟨kept State.prev, kept State.cache, kept State.pxcnt, kept State.pxtotal, hipos,
      kept State.hdrWidth, kept State.hdrHeight, kept State.hdrChannels, kept State.hdrColorspace, ?_⟩
    rw [hipos]
    rcases hwhere with ⟨hhdr, hzero⟩ | ⟨hlate, hoffset⟩
    · exact ⟨.inl hhdr, fun _ => hzero, fun hnot => absurd hhdr hnot⟩
    · refine ⟨.inr hlate, fun hhdr => ?_, fun _ => hoffset⟩
      rcases hlate with hbody | hend
      · cases hhdr.symm.trans hbody
      · cases hhdr.symm.trans hend

/-! How ERROR is left (R305). -/

section
variable {s t : State}

/-- The five error latches (R34). -/
def errorLatches (s : State) : ErrKind × ErrCause × Offset × Word64 × Word64 :=
  (s.errKind, s.errCause, s.errOffset, s.errExpected, s.errFound)

/-- The moves that leave ERROR: the hardware reset input, and a write of CTRL that commands START or SRESET (R36, R305, R320). -/
def Restarts (m : HostMove) : Prop :=
  m = .resetInput ∨ ∃ v : Word64, m = .write .ctrl v ∧ (v.getLsbD 0 ∨ v.getLsbD 1)

/-- A host move in ERROR restarts the block, or keeps the phase and the latches (R303, R305). -/
theorem hostMove_of_error {m : HostMove} (hp : s.phase = .error) (h : hostMove m s = .next t) :
    Restarts m ∧ t.phase ≠ .error ∨ t.phase = .error ∧ errorLatches t = errorLatches s := by
  have hbusy : busy s = false := busy_eq_false_iff.mpr (.inr (.inr hp))
  cases m with
  | placeIn offset bytes =>
    simp only [hostMove, placeIn] at h
    split_ifs at h
    cases h
    exact .inr ⟨hp, rfl⟩
  | write r v =>
    by_cases hctrl : r = .ctrl
    · subst hctrl
      rw [hostMove_write_ctrl, exec_start_eq, if_neg (ne_true_of_eq_false hbusy)] at h
      split_ifs at h with hsreset hstart
      · cases h
        exact .inl ⟨.inr ⟨v, rfl, .inr hsreset⟩, nofun⟩
      · cases h
        exact .inl ⟨.inr ⟨v, rfl, .inl hstart⟩, nofun⟩
      · cases h
        exact .inr ⟨hp, rfl⟩
    by_cases hilen : r = .ilen
    · subst hilen
      simp only [hostMove, writeIlen_eq] at h
      cases h
      exact .inr ⟨hp, rfl⟩
    · rw [hostMove_write_readOnly hctrl hilen] at h
      cases h
      exact .inr ⟨hp, rfl⟩
  | resetInput =>
    cases h
    exact .inl ⟨.inl rfl, nofun⟩
  | poll =>
    rw [hostMove, operate_of_error hp] at h
    cases h
    exact .inr ⟨hp, rfl⟩
  | waitEnd =>
    rw [hostMove, if_neg (ne_true_of_eq_false hbusy)] at h
    cases h
    exact .inr ⟨hp, rfl⟩

/-- A step from ERROR makes a restarting move, or keeps the phase and the latches (R303, R305). -/
theorem step_of_error (hp : s.phase = .error) (h : step s = .next t) :
    (∃ m moves, s.host = m :: moves ∧ Restarts m) ∧ t.phase ≠ .error ∨
      t.phase = .error ∧ errorLatches t = errorLatches s := by
  cases hhost : s.host with
  | nil =>
    rw [step_eq_operate hhost, operate_of_error hp] at h
    cases h
    exact .inr ⟨hp, rfl⟩
  | cons m moves =>
    rw [step_cons hhost] at h
    exact (hostMove_of_error (s := setHost moves s) hp h).imp_left
      (And.imp_left fun hrestart => ⟨m, moves, rfl, hrestart⟩)

end

/-- Settles O30: ERROR is inactive without a host move, and a move that does not restart the block keeps the latches. -/
theorem errorIsLeftOnlyByStartOrReset : Obligations.ErrorIsLeftOnlyByStartOrReset := by
  unfold Obligations.ErrorIsLeftOnlyByStartOrReset
  intro s t hp h
  refine ⟨fun hhost => ?_, fun hleft => ?_, fun hstays => ?_⟩
  · rw [step_eq_operate hhost, operate_of_error hp] at h
    cases h
    rfl
  · rcases step_of_error hp h with ⟨hrestart, -⟩ | ⟨herror, -⟩
    · exact hrestart
    · exact absurd herror hleft
  · rcases step_of_error hp h with ⟨-, hleft⟩ | ⟨-, hlatches⟩
    · exact absurd hstays hleft
    · simpa only [errorLatches, Prod.mk.injEq] using hlatches

end Sys2Proof.Machine
